-- ==== Sys2Proof/Word.lean ====
section
/-! DEFINITION. The two word sizes of the exchange area and the line (R199, R200). -/

namespace Sys2Proof

/-- One byte of a frame or of the exchange area. -/
abbrev Byte := BitVec 8

/-- A 16-bit quantity: a counter (R194), an event sequence (R195), the check field (R11). -/
abbrev Half := BitVec 16

end Sys2Proof
end

