-- ==== Sys2Proof/Config.lean ====
section
/-! DEFINITION. What an implementation fixes and the spec leaves open (free values, no body), and the time unit. -/

namespace Sys2Proof.Config

/-- Free value: the n-th open yes-or-no choice of a run (log 1).
It decides the rounding of a value half way between two steps (R154, log 3), which of the engine and the Load Drive
takes a sample first (R153, log 4), which of two meeting reports is taken first (R98, log 5) and whether a count made
at the take of CLEAR COUNTERS comes before it (R191, log 6). -/
opaque freeBit : Nat → Bool

/-- Free value: whether a started second counts as whole in the purge time left shown at 0x09C (R152, R204, log 17). -/
opaque purgeShownUp : Bool

/-- Ticks of 25 microseconds in one second (DESIGN CHOICE, log 7). The bit times of R1 are 4, 2 and 1 ticks. -/
def ticksPerSecond : Nat := 40000

/-- Ticks of the door's debounce time, 50 ms (R157). -/
def debounceTicks : Nat := 2000

/-- Ticks within which a taken command completes, 100 microseconds (R188). -/
def completionTicks : Nat := 4

/-- Bit times of the roll-call window: 24 slots of 88 (R61). -/
def windowBits : Nat := 2112

end Sys2Proof.Config
end

