-- ==== Sys2Proof/Syntax.lean ====
section
/-! DEFINITION. The commands of the block: one constructor per row of spec/opcode_table.json, with what the event brings. -/

namespace Sys2Proof.Machine

/-- The six payload bytes P0 to P5 of a line frame (R200, R201). -/
structure Payload where
  p0 : Byte
  p1 : Byte
  p2 : Byte
  p3 : Byte
  p4 : Byte
  p5 : Byte
deriving DecidableEq, Repr

/-- What THIS station read of one frame on the line, from the first bit of the sender id on (the kind comes with the row).
`check` is the check field as read. The other fields are the findings of R3, R10 and R12 that depend on the shape of the
line: the first bit before the objection slot, counted from 0 at the first kind bit, whose leading mark was missing (no bit
from there on counts as read), a mark missing in the first or the second objection bit, and the first objection bit read
dominant (R13). `startFault` is a sender's alone: its own start bit, before the kind, read as 1 or without its mark (R10). -/
structure Reading where
  sender : BitVec 4
  seq : Byte
  payload : Payload
  check : Half
  startFault : Bool
  markFaultAt : Option Nat
  slot1Fault : Bool
  slot1Dominant : Bool
  slot2Fault : Bool
deriving DecidableEq, Repr

/-- One analogue sensor circuit as the front end gives it (R154): open, shorted, or a measured value in hundredths of a
degree Celsius (TSENS) or of a percent (HSENS). -/
inductive Sensor where
  | openCircuit
  | shorted
  | measured (hundredths : Int)
deriving DecidableEq, Repr

/-- The inputs of one sample set (R153, R154): the two sensors and the level pins, true for an input at its asserted level. -/
structure Sensors where
  tsens : Sensor
  hsens : Sensor
  rlvl1 : Bool
  rlvl0 : Bool
  tank : Bool
deriving DecidableEq, Repr

/-- The input pins as a reset ends: the sensor inputs, the door switch and NCS (R153, R157, R192). -/
structure Inputs where
  sensors : Sensors
  doorClosed : Bool
  ncsLow : Bool
deriving DecidableEq, Repr

/-- One byte time of an SPI transaction (R181), a header byte or a data byte as its place in the transaction says.
`starts` says that NCS fell before it, `value` is the byte on SDI (without meaning in a READ's data), `whole` that its eighth
bit was sampled, and `ends` that NCS rises after it. -/
structure SpiByte where
  starts : Bool
  value : Byte
  whole : Bool
  ends : Bool
deriving DecidableEq, Repr

end Sys2Proof.Machine

namespace Sys2Proof

open Machine

/-- The commands. The constructors stand in the order of the table, and each docstring names the row's rule. -/
inductive Instr where
  /-- R88 -/ | startStation
  /-- R103 -/ | leaveStation
  /-- R96 -/ | rejoin
  /-- R116 -/ | loadCycle
  /-- R127 -/ | startCycle
  /-- R140 -/ | hold
  /-- R148 -/ | resume
  /-- R149 -/ | abortCycle
  /-- R179 -/ | clearFault
  /-- R190 -/ | snapshotPeers
  /-- R191 -/ | clearCounters
  /-- R192: the pins as the reset ends -/ | restart (inp : Inputs)
  /-- R189: the undefined code written -/ | badCommand (code : Byte)
  /-- R192 -/ | powerOn (inp : Inputs)
  /-- R192 -/ | resetPin (inp : Inputs)
  /-- R87 -/ | configWrite (b : SpiByte)
  /-- R197 -/ | nextOutWrite (b : SpiByte)
  /-- R182 -/ | registerWrite (b : SpiByte)
  /-- R183 -/ | readLatch (b : SpiByte)
  /-- R4: `deferred` when a peer's falling edge comes before the station's own start bit (R6) -/ | idle (deferred : Bool)
  /-- R5 -/ | falseStart
  /-- R9: the bit, counted from 0 at the first kind bit, at which a 1 was sent and a 0 read -/ | arbitrationLost (bit : Nat)
  /-- R20 -/ | abandonedFrame (deferred : Bool)
  /-- R51 -/ | expire (r : Reading)
  /-- R54 -/ | leave (r : Reading)
  /-- R73 -/ | release (r : Reading)
  /-- R71 -/ | claim (r : Reading)
  /-- R55 -/ | rollcall (r : Reading)
  /-- R58 -/ | standing (r : Reading)
  /-- R17 -/ | undefinedKindFrame (kind : BitVec 4) (r : Reading)
  /-- R14 -/ | voidFrame (kind : BitVec 4) (r : Reading)
  /-- R48 -/ | peerLeaseTimeout (peer : BitVec 4)
  /-- R49 -/ | renewalTimeout
  /-- R50 -/ | selfLease
  /-- R61 -/ | rollcallWindowTimeout
  /-- R101 -/ | autoRejoin
  /-- R102 -/ | membershipTimeout
  /-- R153 -/ | sampleSet (inp : Sensors)
  /-- R157 -/ | doorEdge
  /-- R157 -/ | doorChange
  /-- R144 -/ | purgeTimeout
  /-- R137 -/ | phaseDurationReached
  /-- R137 -/ | phaseLimitReached
  /-- R188 -/ | completion
deriving DecidableEq, Repr

end Sys2Proof
end

