-- ==== Sys2Proof/Machine/State.lean ====
section
/-! DEFINITION. Everything the spec gives the part, block by block (00_scope.md, "Block overview"), as plain data, and the
machine right after reset. -/

namespace Sys2Proof.Machine

/-! ## Names the spec uses -/

/-- A timer of the part (R38, R86, R157): stopped, running with the ticks left, or run out. -/
inductive Timer where
  | stopped
  | running (left : Nat)
  | runOut
deriving DecidableEq, Repr

/-- Phase kinds (R108, R202). -/
inductive PhaseKind where
  | fill | preheat | steam | settle | dry | air | cool
deriving DecidableEq, Repr

/-- End conditions (R108). -/
inductive EndCond where
  | time | temp | humid | level
deriving DecidableEq, Repr

/-- Frame kinds 1 to 6 (R21). -/
inductive FrameKind where
  | expire | leave | release | claim | rollcall | standing
deriving DecidableEq, Repr

/-- Station states (R86). -/
inductive StationState where
  | offline | gathering | member | leaving | isolated
deriving DecidableEq, Repr

/-- Transition causes and findings share one code space (R106, R202). -/
inductive Cause where
  | start | windowClosed | selfLease | sequenceGap | unknownSender | selfExpired | gatherRestart | rejoin | autoRejoin
  | deaf | silent | budget | duplicate | leaveStation | leaveApplied | leaveDropped | inconsistent
deriving DecidableEq, Repr

/-- Commands whose line outcome is awaited (R86). -/
inductive Awaited where
  | startStation | rejoin | leaveStation
deriving DecidableEq, Repr

/-- Fault codes 1 to 5 (R171). -/
inductive FaultCode where
  | overTemp | sensor | noWater | phaseLimit | claimRefused
deriving DecidableEq, Repr

/-- Reservoir levels (R154). -/
inductive Level where
  | empty | low | ok | full
deriving DecidableEq, Repr

/-- Hold reasons (R140 to R146). -/
inductive HoldReason where
  | host | door | tank
deriving DecidableEq, Repr

/-! ## The share table (chapters 3 and 4) -/

/-- Amounts of the three pools with the phase kind: an admitted share or a request (R64, R67, R108). -/
structure Share where
  power : Nat
  vent : Nat
  fill : Nat
  kind : PhaseKind
deriving DecidableEq, Repr

/-- A record's standing with what belongs to it (R38): amounts and kind are absent when NONE, and only a WAITING record can
have a gathered position. -/
inductive Holding where
  | none
  | admitted (share : Share)
  | waiting (request : Share) (gathered : Option Nat)
deriving DecidableEq, Repr

/-- A PRESENT station record (R38). An ABSENT record is the absence of one. -/
structure Rec where
  seq : Byte
  lease : Timer
  holding : Holding
deriving DecidableEq, Repr

/-- The Station Table (R38): record i - 1 of `recs` is that of station id i. -/
structure Table where
  recs : Vector (Option Rec) 15
  queue : List Nat
  renewal : Timer
  selfLease : Timer
  windowOpen : Bool
  windowTimer : Timer
deriving DecidableEq, Repr

/-! ## The line and the Outgoing List (chapters 1 and 2) -/

/-- Line Interface states (R4). -/
inductive LineState where
  | detached | waitIdle | idle | receiving | sending
deriving DecidableEq, Repr

/-- A line frame without its check (R7, R8). -/
structure Frame where
  kind : FrameKind
  sender : BitVec 4
  seq : Byte
  payload : Payload
deriving DecidableEq, Repr

/-- What the station did in the latest objection slot (R12, R13). -/
inductive SlotAct where
  | none | objected | objectedSecond | echoed
deriving DecidableEq, Repr

/-- The Line Interface (R1 to R20). `recessive` counts whole recessive bit times (R4), `phase` the ticks into the current bit
time while IDLE (R6), `tx` is the frame being sent, `rx` the bits kept of the frame being received (R9). -/
structure Line where
  state : LineState
  rate : Byte
  id : Byte
  recessive : Nat
  phase : Nat
  tx : Option Frame
  rx : List Bool
  slot : SlotAct
deriving DecidableEq, Repr

/-- What an entry or a deferred posting carries (R24 to R28). A STANDING and a LEAVE hold nothing of their own. -/
inductive Content where
  | expire (target : Nat) (seq : Byte)
  | leave
  | release
  | claim (request : Share)
  | rollcall (power vent fill : Byte)
  | standing
deriving DecidableEq, Repr

/-- An entry of the list with its attempt and void-retry counts (R22). -/
structure Entry where
  content : Content
  attempts : Nat
  voids : Nat
deriving DecidableEq, Repr

/-- A slot of the list with the posting deferred behind an entry in flight (R25 to R27). -/
structure Slot where
  entry : Option Entry
  deferred : Option Content
deriving DecidableEq, Repr

/-- The names of the slots (R22): 15 for EXPIRE, of which the own id never uses one, and four more. -/
inductive SlotId where
  | expire (target : Nat)
  | leave | intent | rollcall | standing
deriving DecidableEq, Repr

/-- The Outgoing List (R22 to R37). Slot i - 1 of `expires` is the EXPIRE slot of target id i. `flight` names the slot whose
entry is in flight; it is none when nothing is sent or when the entry on the line was discarded (R36). -/
structure OutList where
  expires : Vector Slot 15
  leave : Slot
  intent : Slot
  rollcall : Slot
  standing : Slot
  flight : Option SlotId
  seq : Byte
  drops : Nat
deriving DecidableEq, Repr

/-! ## Station Control (chapter 5) -/

/-- The fields of R86. An isolation cause of NONE is the absence of one. -/
structure Control where
  station : StationState
  isolation : Option Cause
  rejoins : Nat
  run : Nat
  rejoinTimer : Timer
  memberTimer : Timer
  answered : Bool
  awaited : Option Awaited
deriving DecidableEq, Repr

/-! ## The Cycle Engine (chapters 6 and 7) -/

/-- A checked phase record (R108). The on-limit field is FAULT when `onLimitFault`. A target of 0 is absent. -/
structure Phase where
  kind : PhaseKind
  stop : EndCond
  onLimitFault : Bool
  temp : Nat
  hum : Nat
  power : Nat
  vent : Nat
  duration : Nat
  limit : Nat
deriving DecidableEq, Repr

/-- Substates of RUNNING (R123). -/
inductive Substate where
  | claiming | waiting | active | regain
deriving DecidableEq, Repr

/-- Engine states (R123): a substate exists only in RUNNING. -/
inductive EngineState where
  | idle | loaded
  | running (sub : Substate)
  | held | faulted | complete
deriving DecidableEq, Repr

/-- The hold-reason set (R123). -/
structure HoldSet where
  host : Bool
  door : Bool
  tank : Bool
deriving DecidableEq, Repr

/-- The cycle table (R115) and the engine's fields (R123). The phase count is the length of `phases`; slots beyond it are
zero. Both timers count ticks and are shown in whole seconds (R136). -/
structure Engine where
  phases : List Phase
  cls : Nat
  maxTemp : Nat
  stale : Bool
  state : EngineState
  index : Nat
  phaseTimer : Nat
  limitTimer : Nat
  holds : HoldSet
  purge : Timer
deriving DecidableEq, Repr

/-! ## Measurement and Load Drive (chapter 8) -/

/-- A sample set (R153): air temperature in half degrees and humidity in percent, each absent when invalid (R154). -/
structure Sample where
  air : Option Int
  hum : Option Nat
  reservoir : Level
  tankFull : Bool
deriving DecidableEq, Repr

/-- The Measurement Unit (R153 to R158), with the sensor and level inputs as they last stood and the time to the next sample
set. -/
structure Meas where
  sample : Sample
  airBad : Nat
  humBad : Nat
  lowReported : Bool
  inputs : Sensors
  nextSample : Timer
  doorOpen : Bool
  doorPinClosed : Bool
  debounce : Timer
  markOverTemp : Bool
  markSensor : Bool
  markNoWater : Bool
deriving DecidableEq, Repr

/-- The load request the engine gives (R124). A phase request names the phase index and its record. -/
inductive LoadRequest where
  | off
  | phase (index : Nat) (p : Phase)
  | purge
deriving DecidableEq, Repr

/-- The Load Drive (R160), with the load request and the gate it last acted on (R161, R165). -/
structure Load where
  request : LoadRequest
  gate : Bool
  heaters : Nat
  steam : Nat
  latch : Bool
  vent : Nat
  fan : Bool
  valve : Bool
deriving DecidableEq, Repr

/-! ## The Fault Record (chapter 9) -/

/-- The fault substate of the record (R174). -/
inductive FaultSub where
  | running (sub : Substate)
  | held
  | entry
deriving DecidableEq, Repr

/-- The Fault Record (R174); an empty record, all zero, is the absence of one. -/
structure FaultRecord where
  code : FaultCode
  index : Nat
  kind : PhaseKind
  sub : FaultSub
  holds : HoldSet
  air : Option Int
  hum : Option Nat
  later : Nat
  last : Option FaultCode
deriving DecidableEq, Repr

/-! ## The exchange port (chapter 10) -/

/-- One care class entry as its four bytes (R107, R204). -/
structure CareClass where
  maxTemp : Byte
  steam : Byte
  lenHi : Byte
  lenLo : Byte
deriving DecidableEq, Repr

/-- The stored configuration: the fourteen scalars of R185 in address order and the care class table. -/
structure Settings where
  stationId : Byte
  rate : Byte
  lease : Byte
  powerBudget : Byte
  ventBudget : Byte
  fillBudget : Byte
  heaterCount : Byte
  heaterRating : Byte
  steamCount : Byte
  steamRating : Byte
  purgeTime : Byte
  retryLimit : Byte
  attemptLimit : Byte
  attention : Byte
  classes : Vector CareClass 6
deriving DecidableEq, Repr

/-- The reasons of a refused LOAD CYCLE (R118), in the order of the checks. -/
inductive CycleReason where
  | count | cls | kind | endCondition | targetRange | classTemp | classSteam | claimShape | claimSize | duration | limit
  | pad | cycleLength
deriving DecidableEq, Repr

/-- Result codes with their detail (R186). -/
inductive Result where
  | ok
  | badCommand (code : Byte)
  | busy | notMember | wrongState | faultPending
  | badConfig (addr : Nat)
  | badCycle (index : Nat) (reason : CycleReason)
  | noCycle
  | conditionPresent (code : FaultCode)
deriving DecidableEq, Repr

/-- A command taken and not yet completed (R188): its answer and the ticks left of its 100 microseconds. -/
structure Taken where
  result : Result
  left : Nat
deriving DecidableEq, Repr

/-- Memory: (address, byte) pairs, addresses rising, no entry equal to what an unlisted address reads as. -/
abbrev Memory := List Host.Cell

/-- Direction of an open transaction (R181): READ, WRITE, or one whose command byte is neither. -/
inductive TxnMode where
  | read | write | dead
deriving DecidableEq, Repr

/-- The five regions read coherently (R183). -/
inductive Coherent where
  | status | faultRecord | counters | ringControl | peerView
deriving DecidableEq, Repr

/-- The read latches of a transaction: the bytes of a region as they stood at its first byte shifted out (R183). -/
structure Latches where
  status : Option (List Byte)
  faultRecord : Option (List Byte)
  counters : Option (List Byte)
  ringControl : Option (List Byte)
  peerView : Option (List Byte)
deriving DecidableEq, Repr

/-- An SPI transaction past its header (R181): the address of its next data byte, whether it lost a byte to the configuration lock (R87)
or a command code byte (R187), whether it stored a non-zero command code (R188), and its latches. -/
structure OpenTxn where
  mode : TxnMode
  addr : BitVec 11
  lostConfig : Bool
  lostCode : Bool
  storedCode : Bool
  latches : Latches
deriving DecidableEq, Repr

/-- The port's transaction (R181, R192): none, one ignored to its end after a reset, one in its header with the header bytes
taken in, or one past its header. -/
inductive Txn where
  | closed
  | ignored
  | header (bytes : List Byte)
  | opened (t : OpenTxn)
deriving DecidableEq, Repr

/-- The SDO pin (R181). -/
inductive Sdo where
  | highZ | low
  | byte (b : Byte)
deriving DecidableEq, Repr

/-- One event ring entry (R195, R205). -/
structure Event where
  seq : Half
  kind : Byte
  subject : Byte
  d0 : Byte
  d1 : Byte
  d2 : Byte
  d3 : Byte
deriving DecidableEq, Repr

/-- The event ring (R195). Positions are numbers modulo 32. -/
structure Ring where
  entries : Vector Event 32
  nextIn : BitVec 5
  nextOut : BitVec 5
  lost : Half
  firstLost : Half
  seq : Half
deriving DecidableEq, Repr

/-- A record of the peer view (R190). -/
structure PeerRecord where
  seq : Byte
  holding : Holding
  leaseTenths : Nat
deriving DecidableEq, Repr

/-- The peer view (R190). -/
structure PeerView where
  number : Byte
  station : StationState
  queue : List Nat
  recs : Vector (Option PeerRecord) 15
deriving DecidableEq, Repr

/-- The port's own state besides the configuration (R181 to R198). -/
structure Port where
  code : Byte
  result : Result
  taken : Option Taken
  param1 : Byte
  param2 : Byte
  staging : Memory
  txn : Txn
  sdo : Sdo
  ring : Ring
  counters : Vector Half 16
  view : PeerView
deriving DecidableEq, Repr

/-- The whole part. `pending` is the queue of commands not yet handled and `free` counts the free values used (log 1). -/
structure State where
  pending : List Instr
  free : Nat
  cfg : Settings
  line : Line
  out : OutList
  table : Table
  control : Control
  engine : Engine
  meas : Meas
  load : Load
  fault : Option FaultRecord
  port : Port
deriving DecidableEq, Repr

/-- The reasons a step could stop with a fault. There are none: the spec gives every command an effect in every state (log 29). -/
inductive Fault where
deriving DecidableEq, Repr

/-- The reasons a step could be refused. -/
inductive Refusal where
  /-- Raised by an arm of exec whose command has no meaning yet; safe. No arm of this model raises it. -/
  | notModelled (mnemonic : String)
deriving DecidableEq, Repr

/-! ## Reset -/

/-- The empty slot (R22). -/
def Slot.empty : Slot := ⟨none, none⟩

/-- An unused care class entry (R107). -/
def CareClass.unused : CareClass := ⟨0, 0, 0, 0⟩

/-- The "After reset" column of R185 and the all-zero class table of R107. -/
def Settings.reset : Settings :=
  { stationId := 0, rate := 1, lease := 10, powerBudget := 0, ventBudget := 0, fillBudget := 1, heaterCount := 0,
    heaterRating := 0, steamCount := 0, steamRating := 0, purgeTime := 20, retryLimit := 3, attemptLimit := 32,
    attention := 0, classes := Vector.replicate 6 CareClass.unused }

/-- DETACHED, no frame in progress, rate code 1 (R1, R4). -/
def Line.reset : Line :=
  { state := .detached, rate := 1, id := 0, recessive := 0, phase := 0, tx := none, rx := [], slot := .none }

/-- Every slot empty, own line sequence 0, own-drop count 0 (R22, R24, R35). -/
def OutList.reset : OutList :=
  { expires := Vector.replicate 15 Slot.empty, leave := Slot.empty, intent := Slot.empty, rollcall := Slot.empty,
    standing := Slot.empty, flight := none, seq := 0, drops := 0 }

/-- All 15 records ABSENT, the queue empty, the timers stopped, the window closed (R38). -/
def Table.reset : Table :=
  { recs := Vector.replicate 15 none, queue := [], renewal := .stopped, selfLease := .stopped, windowOpen := false,
    windowTimer := .stopped }

/-- The last column of R86. -/
def Control.reset : Control :=
  { station := .offline, isolation := none, rejoins := 0, run := 0, rejoinTimer := .stopped, memberTimer := .stopped,
    answered := false, awaited := none }

/-- The empty hold-reason set (R123). -/
def HoldSet.empty : HoldSet := ⟨false, false, false⟩

/-- The reset values of R115 and R123. -/
def Engine.reset : Engine :=
  { phases := [], cls := 0, maxTemp := 0, stale := false, state := .idle, index := 0, phaseTimer := 0, limitTimer := 0,
    holds := HoldSet.empty, purge := .stopped }

/-- The Measurement Unit after the first sample with both sensors open, every level input unasserted and the door open.
DESIGN CHOICE (log 2): the spec does not say what the pins read at power-on. -/
def Meas.reset : Meas :=
  { sample := ⟨none, none, .empty, false⟩, airBad := 1, humBad := 1, lowReported := false,
    inputs := ⟨.openCircuit, .openCircuit, false, false, false⟩, nextSample := .running Config.ticksPerSecond,
    doorOpen := true, doorPinClosed := false, debounce := .stopped, markOverTemp := false, markSensor := false, markNoWater := false }

/-- The last column of R160. -/
def Load.reset : Load :=
  { request := .off, gate := false, heaters := 0, steam := 0, latch := false, vent := 0, fan := false, valve := false }

/-- An event entry of zeros (R195). -/
def Event.zero : Event := ⟨0, 0, 0, 0, 0, 0, 0⟩

/-- The ring after reset (R195). -/
def Ring.reset : Ring :=
  { entries := Vector.replicate 32 Event.zero, nextIn := 0, nextOut := 0, lost := 0, firstLost := 0, seq := 0 }

/-- The peer view after reset (R190). -/
def PeerView.reset : PeerView :=
  { number := 0, station := .offline, queue := [], recs := Vector.replicate 15 none }

/-- The port after reset, NCS high (R186, R192). -/
def Port.reset : Port :=
  { code := 0, result := .ok, taken := none, param1 := 0, param2 := 0, staging := [], txn := .closed, sdo := .highZ,
    ring := Ring.reset, counters := Vector.replicate 16 0, view := PeerView.reset }

/-- The machine right after reset (R192), the input pins as log 2 chooses them and no command waiting. -/
def State.reset : State :=
  { pending := [], free := 0, cfg := Settings.reset, line := Line.reset, out := OutList.reset, table := Table.reset,
    control := Control.reset, engine := Engine.reset, meas := Meas.reset, load := Load.reset, fault := none,
    port := Port.reset }

end Sys2Proof.Machine
end

