-- ==== Sys2Proof/Machine/Operands.lean ====
section
/-! DEFINITION. The operand forms: codes of named values (R202), byte order (R199), the frame's bits and check (R7, R8, R11),
payloads (R201) and the readings of the sensor inputs (R154). -/

namespace Sys2Proof.Machine

/-! ## Bytes -/

/-- The byte of a number (numbers here are below 256). -/
def byteOf (n : Nat) : Byte := BitVec.ofNat 8 n

/-- The byte of a flag. -/
def flagByte (b : Bool) : Byte := if b then 1 else 0

/-- The high byte of a 16-bit quantity, at the lower address (R199). -/
def hiByte (n : Nat) : Byte := byteOf (n / 256)

/-- The low byte of a 16-bit quantity. -/
def loByte (n : Nat) : Byte := byteOf n

/-- The number two bytes spell, the first one more significant (R199). -/
def wordOf (hi lo : Byte) : Nat := hi.toNat * 256 + lo.toNat

/-! ## Codes (R202) -/

/-- Phase kind codes. -/
def PhaseKind.code : PhaseKind → Nat
  | .fill => 1 | .preheat => 2 | .steam => 3 | .settle => 4 | .dry => 5 | .air => 6 | .cool => 7

/-- The kind of a code, none outside 1 to 7. -/
def PhaseKind.ofCode? : Nat → Option PhaseKind
  | 1 => some .fill | 2 => some .preheat | 3 => some .steam | 4 => some .settle | 5 => some .dry | 6 => some .air
  | 7 => some .cool | _ => none

/-- End condition codes (R108). -/
def EndCond.code : EndCond → Nat
  | .time => 1 | .temp => 2 | .humid => 3 | .level => 4

/-- The end condition of a code, none outside 1 to 4. -/
def EndCond.ofCode? : Nat → Option EndCond
  | 1 => some .time | 2 => some .temp | 3 => some .humid | 4 => some .level | _ => none

/-- Frame kind codes (R21). -/
def FrameKind.code : FrameKind → BitVec 4
  | .expire => 1 | .leave => 2 | .release => 3 | .claim => 4 | .rollcall => 5 | .standing => 6

/-- The defined kind of a code; none for 0 and 7 to 15 (R17). -/
def FrameKind.ofCode? (k : BitVec 4) : Option FrameKind :=
  match k.toNat with
  | 1 => some .expire | 2 => some .leave | 3 => some .release | 4 => some .claim | 5 => some .rollcall
  | 6 => some .standing | _ => none

/-- Station state codes. -/
def StationState.code : StationState → Nat
  | .offline => 0 | .gathering => 1 | .member => 2 | .leaving => 3 | .isolated => 4

/-- Transition cause codes. -/
def Cause.code : Cause → Nat
  | .start => 1 | .windowClosed => 2 | .selfLease => 3 | .sequenceGap => 4 | .unknownSender => 5 | .selfExpired => 6
  | .gatherRestart => 7 | .rejoin => 8 | .autoRejoin => 9 | .deaf => 10 | .silent => 11 | .budget => 12
  | .duplicate => 13 | .leaveStation => 14 | .leaveApplied => 15 | .leaveDropped => 16 | .inconsistent => 17

/-- The isolation cause of the status block, 0 NONE. -/
def causeCode : Option Cause → Nat
  | none => 0
  | some c => c.code

/-- The command code a COMMAND_DONE event names (R106, R189). -/
def Awaited.code : Awaited → Nat
  | .startStation => 0x01 | .leaveStation => 0x02 | .rejoin => 0x03

/-- Fault codes (R171). -/
def FaultCode.code : FaultCode → Nat
  | .overTemp => 1 | .sensor => 2 | .noWater => 3 | .phaseLimit => 4 | .claimRefused => 5

/-- Reservoir level codes. -/
def Level.code : Level → Nat
  | .empty => 0 | .low => 1 | .ok => 2 | .full => 3

/-- Standing codes; they serve as claim outcomes 0 to 2 too. -/
def Holding.code : Holding → Nat
  | .none => 0 | .admitted _ => 1 | .waiting _ _ => 2

/-- Substate codes; 0 is none. -/
def Substate.code : Substate → Nat
  | .claiming => 1 | .waiting => 2 | .active => 3 | .regain => 4

/-- The substate left, 0 when there was none. -/
def leftCode : Option Substate → Nat
  | none => 0
  | some b => b.code

/-- Engine state codes. -/
def EngineState.code : EngineState → Nat
  | .idle => 0 | .loaded => 1 | .running _ => 2 | .held => 3 | .faulted => 4 | .complete => 5

/-- The substate byte of the status block. -/
def EngineState.subCode : EngineState → Nat
  | .running b => b.code
  | .idle | .loaded | .held | .faulted | .complete => 0

/-- Fault substate codes. -/
def FaultSub.code : FaultSub → Nat
  | .running b => b.code | .held => 5 | .entry => 6

/-- The bit of a hold reason. -/
def HoldReason.code : HoldReason → Nat
  | .host => 1 | .door => 2 | .tank => 4

/-- The hold-reason set as bits 0 HOST, 1 DOOR, 2 TANK. -/
def HoldSet.code (h : HoldSet) : Nat :=
  (if h.host then 1 else 0) + (if h.door then 2 else 0) + (if h.tank then 4 else 0)

/-- Reason codes of a refused LOAD CYCLE (R118). -/
def CycleReason.code : CycleReason → Nat
  | .count => 1 | .cls => 2 | .kind => 3 | .endCondition => 4 | .targetRange => 5 | .classTemp => 6 | .classSteam => 7
  | .claimShape => 8 | .claimSize => 9 | .duration => 10 | .limit => 11 | .pad => 12 | .cycleLength => 13

/-- Result codes (R186). -/
def Result.code : Result → Nat
  | .ok => 0 | .badCommand _ => 1 | .busy => 2 | .notMember => 3 | .wrongState => 4 | .faultPending => 5
  | .badConfig _ => 6 | .badCycle _ _ => 7 | .noCycle => 8 | .conditionPresent _ => 9

/-- The two detail bytes of a result, 0x082 first (R204). The index of COUNT and CLASS is 255 (R118). -/
def Result.detail : Result → Byte × Byte
  | .badCommand code => (0, code)
  | .badConfig addr => (hiByte addr, loByte addr)
  | .badCycle index reason => (byteOf index, byteOf reason.code)
  | .conditionPresent code => (0, byteOf code.code)
  | .ok | .busy | .notMember | .wrongState | .faultPending | .noCycle => (0, 0)

/-! ## The line frame (R7, R8, R11, R200) -/

/-- The bits of a field, most significant first (R8). -/
def bitsOf {w : Nat} (x : BitVec w) : List Bool := (List.range w).map x.getMsbD

/-- The bits of the payload, P0 first (R200). -/
def Payload.bits (p : Payload) : List Bool :=
  bitsOf p.p0 ++ bitsOf p.p1 ++ bitsOf p.p2 ++ bitsOf p.p3 ++ bitsOf p.p4 ++ bitsOf p.p5

/-- One bit through the check register (R11). -/
def crcStep (reg : Half) (bit : Bool) : Half :=
  if reg.msb != bit then (reg <<< 1) ^^^ 0x1021 else reg <<< 1

/-- The check over a run of bits: the register starts at all ones (R11). -/
def crc (bits : List Bool) : Half := bits.foldl crcStep 0xFFFF

/-- The 64 bits the check covers: kind, sender id, sequence and payload (R11). -/
def coveredBits (kind sender : BitVec 4) (seq : Byte) (p : Payload) : List Bool :=
  bitsOf kind ++ bitsOf sender ++ bitsOf seq ++ p.bits

/-- The check of a frame (R11). -/
def checkOf (kind sender : BitVec 4) (seq : Byte) (p : Payload) : Half := crc (coveredBits kind sender seq p)

/-- The 80 bits a sender compares with the line: first kind bit to last check bit (R9). -/
def Frame.dataBits (f : Frame) : List Bool :=
  coveredBits f.kind.code f.sender f.seq f.payload ++ bitsOf (checkOf f.kind.code f.sender f.seq f.payload)

/-- The 80 bits a station read of a frame. -/
def Reading.dataBits (kind : BitVec 4) (r : Reading) : List Bool :=
  coveredBits kind r.sender r.seq r.payload ++ bitsOf r.check

/-- The reading of a frame heard without a finding. -/
def Reading.clean (kind sender : BitVec 4) (seq : Byte) (p : Payload) : Reading :=
  { sender := sender, seq := seq, payload := p, check := checkOf kind sender seq p, startFault := false,
    markFaultAt := none, slot1Fault := false, slot1Dominant := false, slot2Fault := false }

/-- How a sender fares against what it reads back (R9, R10). -/
inductive Contest where
  | kept | lost | driveFault
deriving DecidableEq, Repr

/-- The first difference decides: a 1 read as 0 loses arbitration (R9), a 0 read as 1 is a drive fault (R10). -/
def contest : List Bool → List Bool → Contest
  | sent :: ss, got :: gs => if sent = got then contest ss gs else if sent then .lost else .driveFault
  | _, _ => .kept

/-! ## Payloads (R201) -/

/-- An all-zero payload: LEAVE and RELEASE (R201). -/
def Payload.zero : Payload := ⟨0, 0, 0, 0, 0, 0⟩

/-- The record a STANDING carries in P3 to P5, unpacked (R201). -/
structure StandingFields where
  standing : Nat
  fill : Nat
  position : Nat
  power : Nat
  vent : Nat
  kind : Nat
deriving DecidableEq, Repr

/-- Unpack P3 to P5 of a STANDING (R201). -/
def Payload.standingFields (p : Payload) : StandingFields :=
  { standing := p.p3.toNat / 64, fill := p.p3.toNat / 16 % 4, position := p.p3.toNat % 16, power := p.p4.toNat,
    vent := p.p5.toNat / 8, kind := p.p5.toNat % 8 }

/-- The fields of a STANDING that reports a record at a queue position; absent values are zero (R26, R201). -/
def StandingFields.ofHolding (h : Holding) (position : Nat) : StandingFields :=
  match h with
  | .none => ⟨0, 0, 0, 0, 0, 0⟩
  | .admitted a => ⟨1, a.fill, 0, a.power, a.vent, a.kind.code⟩
  | .waiting a _ => ⟨2, a.fill, position, a.power, a.vent, a.kind.code⟩

/-- A STANDING payload: the budgets and the packed record (R201). -/
def Payload.ofStanding (power vent fill : Byte) (f : StandingFields) : Payload :=
  ⟨power, vent, fill, byteOf (f.standing * 64 + f.fill * 16 + f.position), byteOf f.power, byteOf (f.vent * 8 + f.kind)⟩

/-- A STANDING is malformed as R57 says, and with power above 63 or a fill flag above 1 whatever its standing, as R201 says
(log 39). Vent units above 31 cannot be carried in five bits (R201). -/
def StandingFields.malformed (f : StandingFields) : Bool :=
  f.standing == 3 || (f.standing == 2 && f.position == 0) || decide (63 < f.power) || decide (31 < f.vent) ||
    decide (1 < f.fill) || (f.standing != 0 && f.kind == 0)

/-- The request of a CLAIM payload when it is not malformed (R67). -/
def Payload.request? (p : Payload) : Option Share :=
  if 63 < p.p0.toNat ∨ 31 < p.p1.toNat ∨ 1 < p.p2.toNat then none
  else
    match PhaseKind.ofCode? p.p3.toNat with
    | some k => some ⟨p.p0.toNat, p.p1.toNat, p.p2.toNat, k⟩
    | none => none

/-- A CLAIM's request is zero when its three amounts are, whatever its kind (R67). -/
def Payload.zeroRequest (p : Payload) : Bool := p.p0 == 0 && p.p1 == 0 && p.p2 == 0

/-- The payload of a CLAIM (R201). -/
def Payload.ofRequest (a : Share) : Payload :=
  ⟨byteOf a.power, byteOf a.vent, byteOf a.fill, byteOf a.kind.code, 0, 0⟩

/-! ## Exchange area addresses (R181, R182) -/

/-- The address a header carries: the low three bits of the high byte, then the low byte (R181). -/
def headerAddr (hi lo : Byte) : Nat := (hi.toNat % 8) * 256 + lo.toNat

/-- A configuration address: the scalars 0x010 to 0x01D or the class table 0x020 to 0x037 (R87, R182). -/
def isConfigAddr (a : Nat) : Bool := (0x010 ≤ a && a ≤ 0x01D) || (0x020 ≤ a && a ≤ 0x037)

/-! ## Sensor inputs (R154) -/

/-- The nearest multiple of `unit` hundredths, counted in units; exactly half way the free value decides (log 3). -/
def roundTo (unit : Int) (up : Bool) (x : Int) : Int :=
  let q := x / unit
  let r := x % unit
  if 2 * r < unit then q else if unit < 2 * r then q + 1 else if up then q + 1 else q

/-- The air temperature reading in half degrees: valid from -10.0 to 120.0 degrees (R154). -/
def airReading (up : Bool) : Sensor → Option Int
  | .measured x => if -1000 ≤ x ∧ x ≤ 12000 then some (roundTo 50 up x) else none
  | .openCircuit | .shorted => none

/-- The humidity reading in percent: valid from 0 to 100 (R154). -/
def humReading (up : Bool) : Sensor → Option Nat
  | .measured x => if 0 ≤ x ∧ x ≤ 10000 then some (roundTo 100 up x).toNat else none
  | .openCircuit | .shorted => none

/-- The reservoir level decoded from its two inputs (R154). -/
def levelOf (rlvl1 rlvl0 : Bool) : Level :=
  match rlvl1, rlvl0 with
  | false, false => .empty
  | false, true => .low
  | true, false => .ok
  | true, true => .full

/-- The sample set that the inputs give (R153, R154); the two Booleans round a half way value. -/
def sampleOf (airUp humUp : Bool) (i : Sensors) : Sample :=
  { air := airReading airUp i.tsens, hum := humReading humUp i.hsens, reservoir := levelOf i.rlvl1 i.rlvl0,
    tankFull := i.tank }

end Sys2Proof.Machine
end

