-- ==== Sys2Proof/WellFormed.lean ====
section
/-! DEFINITION. Which commands can come about: the checks of an operand that the spec's words about the row give. -/

namespace Sys2Proof

open Machine

/-- The twelve defined command codes (R189). -/
def commandCodes : List Byte :=
  [0x01, 0x02, 0x03, 0x10, 0x11, 0x12, 0x13, 0x14, 0x15, 0x20, 0x21, 0x3F]

/-- A byte of fewer than eight sampled bits is the last one before NCS rises (R181). What kind of byte it is, and which region
it concerns, follows from the transaction's state and not from the byte. -/
def Machine.SpiByte.possible (b : SpiByte) : Bool := b.whole || b.ends

/-- A mark missing before the objection slot is that of one of the 80 bits from the first kind bit to the last check bit (R3). -/
def Machine.Reading.possible (r : Reading) : Bool := r.markFaultAt.all (fun n => n < 80)

/-- Kinds 1 to 6 are defined (R17, R21). -/
def definedKind (k : BitVec 4) : Bool := 1 ≤ k.toNat && k.toNat ≤ 6

/-- The operand checks of each row. -/
def Instr.wellFormed : Instr → Bool
  | .startStation | .leaveStation | .rejoin | .loadCycle | .startCycle | .hold | .resume => true
  | .abortCycle | .clearFault | .snapshotPeers | .clearCounters => true
  | .restart _ => true
  | .badCommand code => code != 0 && !commandCodes.contains code
  | .powerOn _ | .resetPin _ => true
  | .configWrite b | .nextOutWrite b | .registerWrite b | .readLatch b => b.possible
  | .idle _ | .falseStart => true
  | .arbitrationLost bit => bit < 80
  | .abandonedFrame _ => true
  | .expire r | .leave r | .release r | .claim r | .rollcall r | .standing r => r.possible
  | .undefinedKindFrame kind r => !definedKind kind && r.possible
  | .voidFrame _ r => r.possible
  | .peerLeaseTimeout peer => peer != 0
  | .renewalTimeout | .selfLease | .rollcallWindowTimeout | .autoRejoin | .membershipTimeout => true
  | .sampleSet _ => true
  | .doorEdge | .doorChange | .purgeTimeout | .phaseDurationReached | .phaseLimitReached => true
  | .completion => true

end Sys2Proof
end

