-- ==== Sys2Proof/Machine/Ops.lean ====
section
/-! DEFINITION. The named operations over memory, timers, the event ring, the counters, the Outgoing List and the share
table. Every meaning is built from these. -/

namespace Sys2Proof.Machine

/-! ## Replacing one block of the state -/

def State.setLine (s : State) (l : Line) : State := { s with line := l }
def State.setOut (s : State) (o : OutList) : State := { s with out := o }
def State.setTable (s : State) (t : Table) : State := { s with table := t }
def State.setControl (s : State) (c : Control) : State := { s with control := c }
def State.setEngine (s : State) (e : Engine) : State := { s with engine := e }
def State.setMeas (s : State) (m : Meas) : State := { s with meas := m }
def State.setLoad (s : State) (l : Load) : State := { s with load := l }
def State.setFault (s : State) (f : Option FaultRecord) : State := { s with fault := f }
def State.setPort (s : State) (p : Port) : State := { s with port := p }
def State.setCfg (s : State) (c : Settings) : State := { s with cfg := c }
def State.setFree (s : State) (n : Nat) : State := { s with free := n }
def State.setPending (s : State) (q : List Instr) : State := { s with pending := q }

/-! ## The staging memory (10 R182, 06 section 6.6) -/

/-- What an address that nothing has written reads as: the staging area's bytes are zero after every reset (R192). -/
def unlisted : Byte := 0

/-- The byte at an address. -/
def Memory.read : Memory → Nat → Byte
  | [], _ => unlisted
  | (k, b) :: rest, a => if k = a then b else Memory.read rest a

/-- Store a byte and keep the canonical form: a byte equal to what an unlisted address reads as is not listed. -/
def Memory.write : Memory → Nat → Byte → Memory
  | [], a, v => if v = unlisted then [] else [(a, v)]
  | (k, b) :: rest, a, v =>
    if a < k then (if v = unlisted then (k, b) :: rest else (a, v) :: (k, b) :: rest)
    else if a = k then (if v = unlisted then rest else (a, v) :: rest)
    else (k, b) :: Memory.write rest a v

/-- The canonical form from an address on. -/
def Memory.wfFrom : Nat → Memory → Bool
  | _, [] => true
  | lo, (k, b) :: rest => decide (lo ≤ k) && b != unlisted && Memory.wfFrom (k + 1) rest

/-- The canonical form: addresses strictly rising, no entry equal to what an unlisted address reads as. -/
def Memory.wf (m : Memory) : Bool := Memory.wfFrom 0 m

/-! ## Timers -/

/-- One tick off a running timer. -/
def Timer.tick : Timer → Timer
  | .running n => .running (n - 1)
  | .stopped => .stopped
  | .runOut => .runOut

/-- The ticks a running timer has left, 0 otherwise. -/
def Timer.left : Timer → Nat
  | .running n => n
  | .stopped | .runOut => 0

/-- The timer is running. -/
def Timer.isRunning : Timer → Bool
  | .running _ => true
  | .stopped | .runOut => false

/-- The timer has counted to its end and its event is due. -/
def Timer.isDue : Timer → Bool
  | .running n => n == 0
  | .stopped | .runOut => false

/-- The lease interval L in ticks (R47). -/
def Settings.leaseTicks (c : Settings) : Nat := c.lease.toNat * Config.ticksPerSecond

/-- L/2, after which a renewal is due (R49). -/
def Settings.renewalTicks (c : Settings) : Nat := c.leaseTicks / 2

/-- 3L/4, after which the self-lease runs out (R50). -/
def Settings.selfLeaseTicks (c : Settings) : Nat := c.leaseTicks * 3 / 4

/-- Ticks of one bit time at a rate code (R1): 100, 50 and 25 microseconds. -/
def bitTicks (rate : Byte) : Nat := if rate = 0 then 4 else if rate = 1 then 2 else 1

/-! ## Events and counters -/

/-- Event kinds (R205). -/
inductive EventKind where
  | stationState | memberAdded | memberRemoved | ownOutcome | grant | grantLost | budgetRejected | standingDisagrees
  | phaseStart | phaseEnd | cycleDone | holdOn | holdOff | fault | levelLow | frameDropped | commandDone
deriving DecidableEq, Repr

/-- Event kind codes 1 to 17 (R205). -/
def EventKind.code : EventKind → Nat
  | .stationState => 1 | .memberAdded => 2 | .memberRemoved => 3 | .ownOutcome => 4 | .grant => 5 | .grantLost => 6
  | .budgetRejected => 7 | .standingDisagrees => 8 | .phaseStart => 9 | .phaseEnd => 10 | .cycleDone => 11
  | .holdOn => 12 | .holdOff => 13 | .fault => 14 | .levelLow => 15 | .frameDropped => 16 | .commandDone => 17

/-- A saturating 16-bit count (R194). -/
def satInc (n : Half) : Half := if n = 0xFFFF then n else n + 1

/-- The ring is full: an unread count of 31 (R195). -/
def Ring.full (r : Ring) : Bool := r.nextIn + 1 == r.nextOut

/-- The ring is empty (R195). -/
def Ring.isEmpty (r : Ring) : Bool := r.nextIn == r.nextOut

/-- The unread count, NEXT_IN less NEXT_OUT modulo 32 (R195). -/
def Ring.unread (r : Ring) : BitVec 5 := r.nextIn - r.nextOut

/-- Record an event (R196): it takes the event sequence, and is stored at NEXT_IN or, if the ring is full, lost and counted. -/
def Ring.record (r : Ring) (kind subject d0 d1 d2 d3 : Byte) : Ring :=
  if r.full then
    { r with seq := r.seq + 1, firstLost := if r.lost = 0 then r.seq else r.firstLost, lost := satInc r.lost }
  else
    { r with
      seq := r.seq + 1
      entries := r.entries.set r.nextIn.toNat ⟨r.seq, kind, subject, d0, d1, d2, d3⟩ r.nextIn.isLt
      nextIn := r.nextIn + 1 }

/-- Generate an event (R196, R205). -/
def emit (k : EventKind) (subject d0 d1 d2 d3 : Nat) (s : State) : State :=
  s.setPort { s.port with
    ring := s.port.ring.record (byteOf k.code) (byteOf subject) (byteOf d0) (byteOf d1) (byteOf d2) (byteOf d3) }

/-- The sixteen counters (R194), in the order of their numbers. -/
inductive Counter where
  | framesApplied | ownApplied | objections | ownVoided | arbitrationLosses | dropsByRetries | dropsByAttempts
  | receptionErrors | staleExpiries | undefinedKinds | disagreements | budgetRejections | resyncs | gatherRestarts
  | configRefused | commandsDiscarded
deriving DecidableEq, Repr

/-- A counter's number n; it stands at 0x0D0 + 2n (R194). -/
def Counter.number : Counter → Fin 16
  | .framesApplied => 0 | .ownApplied => 1 | .objections => 2 | .ownVoided => 3 | .arbitrationLosses => 4
  | .dropsByRetries => 5 | .dropsByAttempts => 6 | .receptionErrors => 7 | .staleExpiries => 8 | .undefinedKinds => 9
  | .disagreements => 10 | .budgetRejections => 11 | .resyncs => 12 | .gatherRestarts => 13 | .configRefused => 14
  | .commandsDiscarded => 15

/-- The value of a counter. -/
def State.counter (s : State) (c : Counter) : Half := s.port.counters[c.number]

/-- Add one to a saturating counter (R194). -/
def bump (c : Counter) (s : State) : State :=
  s.setPort { s.port with counters := s.port.counters.set c.number (satInc s.port.counters[c.number]) }

/-! ## The share table (chapters 3 and 4) -/

/-- The record of an id, none when ABSENT or when the id is not 1 to 15 (R38). -/
def Table.rec? (t : Table) (id : Nat) : Option Rec :=
  if h : 1 ≤ id ∧ id ≤ 15 then t.recs[id - 1]'(by omega) else none

/-- Replace the record of an id. -/
def Table.put (t : Table) (id : Nat) (r : Option Rec) : Table :=
  if h : 1 ≤ id ∧ id ≤ 15 then { t with recs := t.recs.set (id - 1) r (by omega) } else t

/-- What a PRESENT record holds; NONE for an ABSENT one (R38). -/
def Table.holding (t : Table) (id : Nat) : Holding :=
  match t.rec? id with
  | some r => r.holding
  | none => .none

/-- Give a PRESENT record new content. -/
def Table.setHolding (t : Table) (id : Nat) (h : Holding) : Table :=
  match t.rec? id with
  | some r => t.put id (some { r with holding := h })
  | none => t

/-- Set a PRESENT record's last sequence and restart its lease (R45, R47). -/
def Table.renew (t : Table) (id : Nat) (seq : Byte) (leaseTicks : Nat) : Table :=
  match t.rec? id with
  | some r => t.put id (some { r with seq := seq, lease := .running leaseTicks })
  | none => t

/-- Place of an id in the queue counted from 1, 0 when it is not in it (R74). -/
def queuePos : List Nat → Nat → Nat
  | [], _ => 0
  | x :: xs, id => if x = id then 1 else if queuePos xs id = 0 then 0 else queuePos xs id + 1

/-- The amounts of an ADMITTED record; WAITING and NONE hold nothing (R65). -/
def Holding.held (f : Share → Nat) : Holding → Nat
  | .admitted a => f a
  | .none | .waiting _ _ => 0

/-- The same for a record that may be ABSENT. -/
def heldBy (f : Share → Nat) : Option Rec → Nat
  | some r => r.holding.held f
  | none => 0

/-- The sum over the ADMITTED records (R65). -/
def Table.heldSum (t : Table) (f : Share → Nat) : Nat := (t.recs.toList.map (heldBy f)).sum

/-- Free power, vent and fill: the budget less the ADMITTED sums (R65). -/
def Table.freePower (t : Table) (c : Settings) : Nat := c.powerBudget.toNat - t.heldSum Share.power
def Table.freeVent (t : Table) (c : Settings) : Nat := c.ventBudget.toNat - t.heldSum Share.vent
def Table.freeFill (t : Table) (c : Settings) : Nat := c.fillBudget.toNat - t.heldSum Share.fill

/-- A request fits when it asks for no more than free in every pool (R66). -/
def Table.fits (t : Table) (c : Settings) (a : Share) : Bool :=
  decide (a.power ≤ t.freePower c) && decide (a.vent ≤ t.freeVent c) && decide (a.fill ≤ t.freeFill c)

/-- The admission scan from a given rest of the queue (R76). -/
def Table.scanFrom (c : Settings) : List Nat → Table → Table
  | [], t => { t with queue := [] }
  | id :: rest, t =>
    match t.holding id with
    | .waiting a _ =>
      if t.fits c a then Table.scanFrom c rest (t.setHolding id (.admitted a)) else { t with queue := id :: rest }
    | .none => { t with queue := id :: rest }
    | .admitted _ => { t with queue := id :: rest }

/-- The admission scan (R76). -/
def Table.scan (t : Table) (c : Settings) : Table := Table.scanFrom c t.queue t

/-- A station gives up everything it holds or awaits: NONE, and out of the queue (R73). -/
def Table.giveUp (t : Table) (id : Nat) : Table :=
  { t.setHolding id .none with queue := t.queue.filter (fun x => x != id) }

/-- The removal of a peer: ABSENT, and out of the queue (R41). -/
def Table.remove (t : Table) (id : Nat) : Table :=
  { t.put id none with queue := t.queue.filter (fun x => x != id) }

/-- Add a station as PRESENT (R55, R59, R60). -/
def Table.add (t : Table) (id : Nat) (seq : Byte) (leaseTicks : Nat) (h : Holding) : Table :=
  t.put id (some { seq := seq, lease := .running leaseTicks, holding := h })

/-- A CLAIM is refused when its request is malformed or asks for more than a whole budget (R69). -/
def claimRefused (c : Settings) (p : Payload) : Bool :=
  !p.zeroRequest &&
    match p.request? with
    | some a => decide (c.powerBudget.toNat < a.power) || decide (c.ventBudget.toNat < a.vent) ||
        decide (c.fillBudget.toNat < a.fill)
    | none => true

/-- A CLAIM that asks in every pool for no more than the sender is admitted with (R70). -/
def Holding.stepsDown (h : Holding) (a : Share) : Bool :=
  match h with
  | .admitted b => decide (a.power ≤ b.power) && decide (a.vent ≤ b.vent) && decide (a.fill ≤ b.fill)
  | .none | .waiting _ _ => false

/-- Compete as a newcomer after giving up (R71, second step). -/
def Table.compete (t : Table) (c : Settings) (id : Nat) (a : Share) : Table :=
  if t.queue.isEmpty && t.fits c a then t.setHolding id (.admitted a)
  else { t.setHolding id (.waiting a none) with queue := t.queue ++ [id] }

/-- What a CLAIM does to the records before the scan: zero (R68), refused (R69), step-down (R70) or afresh (R71). -/
def Table.claim (t : Table) (c : Settings) (id : Nat) (p : Payload) : Table :=
  if p.zeroRequest || claimRefused c p then t.giveUp id
  else
    match p.request? with
    | some a => if (t.holding id).stepsDown a then t.setHolding id (.admitted a) else (t.giveUp id).compete c id a
    | none => t.giveUp id

/-- The gathered position of a queued id, if its record has one (R60). -/
def Table.gathered? (t : Table) (id : Nat) : Option Nat :=
  match t.holding id with
  | .waiting _ g => g
  | .none | .admitted _ => none

/-- Insert an id before the first queued id whose gathered position is greater or absent (R60). -/
def Table.insertGathered (t : Table) (id pos : Nat) : List Nat → List Nat
  | [] => [id]
  | x :: xs =>
    match t.gathered? x with
    | some g => if pos < g then id :: x :: xs else x :: Table.insertGathered t id pos xs
    | none => id :: x :: xs

/-- Discard a gathered position (R60, R93). -/
def Holding.dropGathered : Holding → Holding
  | .waiting a _ => .waiting a Option.none
  | .none => .none
  | .admitted a => .admitted a

/-- Discard every gathered position, on entry into MEMBER (R93). -/
def Table.dropGathered (t : Table) : Table :=
  { t with recs := t.recs.map (fun r => r.map (fun x => { x with holding := x.holding.dropGathered })) }

/-- Clearing (R40): every record but the own one ABSENT, the own one NONE (R39), the queue empty, the window closed. -/
def Table.clear (t : Table) (own : Nat) : Table :=
  ({ t with recs := Vector.replicate 15 none, queue := [], windowOpen := false, windowTimer := .stopped } : Table).put own
    ((t.rec? own).map (fun r => { r with holding := .none, lease := .stopped }))

/-- Clearing on entry into OFFLINE (R40, R104): the own record ABSENT too, its two timers stopped. -/
def Table.clearAll (t : Table) : Table :=
  { t with recs := Vector.replicate 15 none, queue := [], windowOpen := false, windowTimer := .stopped,
           renewal := .stopped, selfLease := .stopped }

/-! ## The Outgoing List (chapter 2) -/

/-- The slot of a name; a target outside 1 to 15 has none and reads as empty. -/
def OutList.slot (o : OutList) : SlotId → Slot
  | .expire t => if h : 1 ≤ t ∧ t ≤ 15 then o.expires[t - 1]'(by omega) else Slot.empty
  | .leave => o.leave
  | .intent => o.intent
  | .rollcall => o.rollcall
  | .standing => o.standing

/-- Replace a slot. -/
def OutList.setSlot (o : OutList) (id : SlotId) (sl : Slot) : OutList :=
  match id with
  | .expire t => if h : 1 ≤ t ∧ t ≤ 15 then { o with expires := o.expires.set (t - 1) sl (by omega) } else o
  | .leave => { o with leave := sl }
  | .intent => { o with intent := sl }
  | .rollcall => { o with rollcall := sl }
  | .standing => { o with standing := sl }

/-- A new entry has both counts 0 (R22). -/
def Entry.fresh (c : Content) : Entry := ⟨c, 0, 0⟩

/-- A posting to a slot (R25 to R27): deferred behind an entry in flight, otherwise the pending entry. -/
def OutList.post (o : OutList) (id : SlotId) (c : Content) : OutList :=
  if o.flight = some id then o.setSlot id { o.slot id with deferred := some c }
  else o.setSlot id { o.slot id with entry := some (Entry.fresh c) }

/-- Every slot emptied and the entry in flight discarded (R36). -/
def OutList.emptied (o : OutList) : OutList :=
  { o with expires := Vector.replicate 15 Slot.empty, leave := Slot.empty, intent := Slot.empty, rollcall := Slot.empty,
           standing := Slot.empty, flight := none }

/-- A pending EXPIRE entry for a target: held in the slot and not in flight (R29). -/
def OutList.expirePending (o : OutList) (target : Nat) : Bool :=
  (o.slot (.expire target)).entry.isSome && o.flight != some (.expire target)

/-- The withdrawal of a pending EXPIRE (R29). -/
def OutList.withdraw (o : OutList) (target : Nat) : OutList :=
  if o.expirePending target then o.setSlot (.expire target) Slot.empty else o

/-- The withdrawal of every pending EXPIRE (R94): an entry in flight keeps its slot. -/
def OutList.withdrawAll (o : OutList) : OutList :=
  match o.flight with
  | some (.expire t) =>
    ({ o with expires := Vector.replicate 15 Slot.empty } : OutList).setSlot (.expire t) (o.slot (.expire t))
  | _ => { o with expires := Vector.replicate 15 Slot.empty }

/-- The slots in the order of R30: EXPIRE by target, LEAVE, intent, ROLLCALL, STANDING. -/
def slotOrder : List SlotId :=
  [.expire 1, .expire 2, .expire 3, .expire 4, .expire 5, .expire 6, .expire 7, .expire 8, .expire 9, .expire 10,
   .expire 11, .expire 12, .expire 13, .expire 14, .expire 15, .leave, .intent, .rollcall, .standing]

/-- While the roll-call window is open only STANDING and ROLLCALL are sendable (R30). -/
def SlotId.sendableInWindow : SlotId → Bool
  | .rollcall | .standing => true
  | .expire _ | .leave | .intent => false

/-- The entry the list offers (R30), with its slot. -/
def OutList.offer (o : OutList) (windowOpen : Bool) : Option SlotId :=
  slotOrder.find? (fun id => (o.slot id).entry.isSome && o.flight != some id && (!windowOpen || id.sendableInWindow))

end Sys2Proof.Machine
end

