-- ==== Sys2Proof/Machine/Flags.lean ====
section
/-! DEFINITION. The conditions the rules test: what follows from the state at a moment and is not stored. -/

namespace Sys2Proof.Machine

/-! ## Station -/

/-- The station's own id, from the configuration (R38, R39). -/
def State.ownId (s : State) : Nat := s.cfg.stationId.toNat

/-- The own record's content; NONE when there is no own record (R82). -/
def State.own (s : State) : Holding := s.table.holding s.ownId

/-- The station is MEMBER. -/
def State.isMember (s : State) : Bool := s.control.station == .member

/-- The configuration lock is engaged in every station state but OFFLINE (R87). -/
def State.locked (s : State) : Bool := s.control.station != .offline

/-- GATHERING, MEMBER and LEAVING: the states that receive postings (R23), object, echo and apply (R18). -/
def StationState.takesPart : StationState → Bool
  | .gathering | .member | .leaving => true
  | .offline | .isolated => false

/-- The intent slot is busy: an entry, pending or in flight, or a deferred intent (R125). -/
def State.intentBusy (s : State) : Bool := s.out.intent.entry.isSome || s.out.intent.deferred.isSome

/-- The own queue position, 0 unless WAITING (R82). -/
def State.ownPosition (s : State) : Nat := queuePos s.table.queue s.ownId

/-! ## Phases (chapter 6) -/

/-- The fill flag of a phase: 1 for FILL (R108). -/
def PhaseKind.fillFlag : PhaseKind → Nat
  | .fill => 1
  | .preheat | .steam | .settle | .dry | .air | .cool => 0

/-- The request of a phase (R108). -/
def Phase.request (p : Phase) : Share := ⟨p.power, p.vent, p.kind.fillFlag, p.kind⟩

/-- A request of nothing in every pool (R123). -/
def Share.isZero (a : Share) : Bool := a.power == 0 && a.vent == 0 && a.fill == 0

/-- An ADMITTED share covers a request (R123). -/
def Share.covers (a req : Share) : Bool :=
  decide (req.power ≤ a.power) && decide (req.vent ≤ a.vent) && decide (req.fill ≤ a.fill)

/-- Equal amounts in every pool, whatever the kinds (R130). -/
def Share.sameAmounts (a b : Share) : Bool := a.power == b.power && a.vent == b.vent && a.fill == b.fill

/-- The own record is ADMITTED and covers a request (R123). -/
def Holding.coversRequest (h : Holding) (req : Share) : Bool :=
  match h with
  | .admitted a => a.covers req
  | .none | .waiting _ _ => false

/-- The record is ADMITTED with vent units above 0 (R143, R144). -/
def Holding.holdsVent (h : Holding) : Bool := decide (0 < h.held Share.vent)

/-- The record is ADMITTED. -/
def Holding.isAdmitted : Holding → Bool
  | .admitted _ => true
  | .none | .waiting _ _ => false

/-- The record is WAITING. -/
def Holding.isWaiting : Holding → Bool
  | .waiting _ _ => true
  | .none | .admitted _ => false

/-- The time of a phase: its duration or its limit (R112). -/
def Phase.time (p : Phase) : Nat := if p.stop = .time then p.duration else p.limit

/-- A phase that stands for none: no rule reaches it, because a started cycle has a phase at its index (log 26). -/
def Phase.blank : Phase := ⟨.settle, .time, false, 0, 0, 0, 0, 0, 0⟩

/-- The current phase: the record at the phase index (R123). -/
def Engine.current (e : Engine) : Phase := e.phases.getD e.index Phase.blank

/-- A phase in which the tank hold applies (R146). -/
def PhaseKind.makesCondensate : PhaseKind → Bool
  | .steam | .dry => true
  | .fill | .preheat | .settle | .air | .cool => false

/-- A phase that drives the vent at the admitted level (R167). -/
def PhaseKind.vents : PhaseKind → Bool
  | .preheat | .steam | .dry | .air | .cool => true
  | .fill | .settle => false

/-- The end condition a sample meets (R111); TIME is not met by a sample, an invalid value meets nothing. -/
def Phase.endMet (p : Phase) (m : Sample) : Bool :=
  match p.stop with
  | .time => false
  | .temp =>
    match m.air with
    | some t => if p.kind = .cool then decide (t ≤ 2 * (p.temp : Int)) else decide (2 * (p.temp : Int) ≤ t)
    | none => false
  | .humid =>
    match m.hum with
    | some h => if p.kind = .steam then decide (p.hum ≤ h) else decide (h ≤ p.hum)
    | none => false
  | .level => m.reservoir == .full

/-! ## Engine -/

/-- The set is empty. -/
def HoldSet.isEmpty (h : HoldSet) : Bool := !h.host && !h.door && !h.tank

/-- A reason is in the set. -/
def HoldSet.has (h : HoldSet) : HoldReason → Bool
  | .host => h.host | .door => h.door | .tank => h.tank

/-- Put a reason in or take it out. -/
def HoldSet.put (h : HoldSet) (r : HoldReason) (b : Bool) : HoldSet :=
  match r with
  | .host => { h with host := b }
  | .door => { h with door := b }
  | .tank => { h with tank := b }

/-- The engine is RUNNING in any substate. -/
def EngineState.isRunning : EngineState → Bool
  | .running _ => true
  | .idle | .loaded | .held | .faulted | .complete => false

/-- RUNNING or HELD: the states in which a cycle is under way (R103, R140, R150). -/
def EngineState.underWay : EngineState → Bool
  | .running _ | .held => true
  | .idle | .loaded | .faulted | .complete => false

/-- The load request of the engine's state (R124). -/
def Engine.loadRequest (e : Engine) : LoadRequest :=
  match e.state with
  | .running .active => .phase e.index e.current
  | .held => if e.purge.isRunning then .purge else .off
  | .running .claiming | .running .waiting | .running .regain => .off
  | .idle | .loaded | .faulted | .complete => .off

/-! ## Measurement (R155, R159) -/

/-- OVER_TEMP: a valid air temperature above 85.0, or above the class maximum plus 5 (R159). -/
def overTempAt (e : Engine) (m : Sample) : Bool :=
  match m.air with
  | some t => decide (170 < t) || (e.cls != 0 && decide (2 * ((e.maxTemp : Int) + 5) < t))
  | none => false

/-- SENSOR: either invalid-run count is 3 or more (R155). -/
def sensorAt (airBad humBad : Nat) : Bool := decide (3 ≤ airBad) || decide (3 ≤ humBad)

/-- NO_WATER: the reservoir EMPTY while ACTIVE in a STEAM phase (R159). -/
def noWaterAt (e : Engine) (m : Sample) : Bool :=
  m.reservoir == .empty && e.state == .running .active && e.current.kind == .steam

/-! ## Exchange port -/

/-- ATTN is driven low while the ring is not empty and the attention enable is non-zero (R198). -/
def State.attnLow (s : State) : Bool := !s.port.ring.isEmpty && s.cfg.attention != 0

/-! ## Output pins (R160) -/

/-- Heater drive HTRn is on. -/
def State.htr (s : State) (n : Nat) : Bool := decide (1 ≤ n) && decide (n ≤ s.load.heaters)

/-- Steam drive STMn is on. -/
def State.stm (s : State) (n : Nat) : Bool := decide (1 ≤ n) && decide (n ≤ s.load.steam)

end Sys2Proof.Machine
end

