-- ==== Sys2Proof/Machine/LoadDrive.lean ====
section
/-! DEFINITION. The Load Drive (chapter 8): its gate, its caps, regulation, and the outputs as they follow its inputs. -/

namespace Sys2Proof.Machine

/-- The admitted power P: the own record's power units while ADMITTED (R161). -/
def State.admittedPower (s : State) : Nat := s.own.held Share.power

/-- The gate: MEMBER, own record ADMITTED, and a load request of phase or purge (R161). -/
def State.gateOpen (s : State) : Bool :=
  s.isMember && s.own.isAdmitted && s.engine.loadRequest != .off

/-- Steam stages allowed in a STEAM phase (R162). -/
def steamAllowance (c : Settings) (power : Nat) : Nat :=
  min c.steamCount.toNat (power / c.steamRating.toNat)

/-- Heater stages allowed beside a number of energised steam stages (R162). In a phase other than STEAM the number is 0. -/
def heaterAllowance (c : Settings) (power steam : Nat) : Nat :=
  min c.heaterCount.toNat ((power - steam * c.steamRating.toNat) / c.heaterRating.toNat)

/-- A kind that has a heater allowance (R162). -/
def PhaseKind.heats : PhaseKind → Bool
  | .preheat | .steam | .settle | .dry | .air => true
  | .fill | .cool => false

/-- The heater stages after the cuts of R163 and R165: at most the allowance, and none without an allowance or a target. -/
def cutHeaters (c : Settings) (p : Phase) (power steam heaters : Nat) : Nat :=
  if p.kind.heats && p.temp != 0 then min heaters (heaterAllowance c power steam) else 0

/-- The circulation fan: MEMBER with a phase request of any kind but FILL, or a purge (R168). -/
def fanOn (member : Bool) : LoadRequest → Bool
  | .off => false
  | .phase _ p => member && p.kind != .fill
  | .purge => member

/-- The fill valve's own condition beside an open gate and a FILL phase (R169). -/
def State.fillWanted (s : State) : Bool := s.own.held Share.fill == 1 && s.meas.sample.reservoir != .full

/-- The outputs while the gate is open for a phase. `fresh` says that the request became this phase or the gate opened just
now, which sets the latch ON for a STEAM phase (R166, log 22). -/
def Load.drive (l : Load) (s : State) (fresh : Bool) (index : Nat) (p : Phase) : Load :=
  let power := s.admittedPower
  let latch := if p.kind = .steam then (fresh || l.latch) else false
  let steam :=
    if p.kind = .steam then
      (if fresh then steamAllowance s.cfg power
       else if l.latch then min l.steam (steamAllowance s.cfg power) else 0)
    else 0
  { request := .phase index p, gate := true, heaters := cutHeaters s.cfg p power steam l.heaters, steam := steam,
    latch := latch, vent := if p.kind.vents then s.own.held Share.vent else 0,
    fan := fanOn s.isMember (.phase index p), valve := p.kind == .fill && s.fillWanted }

/-- The outputs while the gate is closed (R161); the fan alone does not depend on the own record (R168). -/
def Load.closed (s : State) : Load :=
  { request := s.engine.loadRequest, gate := false, heaters := 0, steam := 0, latch := false, vent := 0,
    fan := fanOn s.isMember s.engine.loadRequest, valve := false }

/-- The outputs during a purge (R124, R165, R167, R168). -/
def Load.purging (s : State) : Load :=
  { request := .purge, gate := true, heaters := 0, steam := 0, latch := false, vent := s.own.held Share.vent,
    fan := fanOn s.isMember .purge, valve := false }

/-- The outputs that follow from the station state, the own record, the load request and the latest sample at this moment
(R161 to R169). Regulation, which needs a sample, is `regulate`. -/
def Load.follow (s : State) : Load :=
  if s.gateOpen then
    match s.engine.loadRequest with
    | .off => Load.closed s
    | .phase i p => s.load.drive s (!s.load.gate || s.load.request != .phase i p) i p
    | .purge => Load.purging s
  else Load.closed s

/-- The Load Drive judges its inputs afresh (R161). Every command ends with this. -/
def refresh (s : State) : State := s.setLoad (Load.follow s)

/-- The steam decision at a sample (R166): the latch and the steam stages after it. -/
def steamDecision (l : Load) (target allowance : Nat) (hum : Option Nat) : Bool × Nat :=
  match hum with
  | none => (false, 0)
  | some h =>
    if l.latch then (if target ≤ h then (false, 0) else (true, allowance))
    else if h + 3 < target then (true, allowance) else (false, 0)

/-- One heater regulation step (R164) within an allowance; temperatures in half degrees. -/
def heaterStep (heaters allowance target : Nat) (air : Option Int) : Nat :=
  match air with
  | none => 0
  | some t =>
    if t < 2 * (target : Int) - 2 then (if heaters < allowance then heaters + 1 else heaters)
    else if 2 * (target : Int) + 2 < t then heaters - 1
    else heaters

/-- The regulation of one sample while the gate is open for a phase (R164, R166): the steam decision, the heater cut it
brings, then the heater step within the allowance that the decision leaves. -/
def Load.regulated (l : Load) (s : State) (p : Phase) : Load :=
  let power := s.admittedPower
  let d := if p.kind = .steam then steamDecision l p.hum (steamAllowance s.cfg power) s.meas.sample.hum else (false, 0)
  let cut := cutHeaters s.cfg p power d.2 l.heaters
  let heaters :=
    if p.kind.heats && p.temp != 0 then heaterStep cut (heaterAllowance s.cfg power d.2) p.temp s.meas.sample.air else 0
  { l with latch := d.1, steam := d.2, heaters := heaters }

/-- The Load Drive takes the latest sample (R153): regulation while the gate is open with a phase request. -/
def regulate (s : State) : State :=
  if s.load.gate then
    match s.load.request with
    | .phase _ p => s.setLoad (s.load.regulated s p)
    | .off | .purge => s
  else s

/-- The end of every command: the Load Drive follows what the command left. -/
def finish (s : State) : Host.Outcome State Fault Refusal := .next (refresh s)

end Sys2Proof.Machine
end

