-- ==== Sys2Proof/Machine/Engine.lean ====
section
/-! DEFINITION. The Cycle Engine's shared operations (chapters 7 and 9): postings, phase entry, notifications, holds, phase
ends and faults. -/

namespace Sys2Proof.Machine

/-! ## Postings to the Outgoing List -/

/-- A posting of any block (R23): received in GATHERING, MEMBER and LEAVING, discarded in OFFLINE and ISOLATED. -/
def post (id : SlotId) (c : Content) (s : State) : State :=
  if s.control.station.takesPart then s.setOut (s.out.post id c) else s

/-- A posting of an EXPIRE (R28): without effect when the target's slot holds one, and for the own id. -/
def postExpire (target : Nat) (seq : Byte) (s : State) : State :=
  if (s.out.slot (.expire target)).entry.isSome || target == s.ownId then s
  else post (.expire target) (.expire target seq) s

/-- The engine posts an intent only while the station is MEMBER (R125). -/
def postIntent (c : Content) (s : State) : State := if s.isMember then post .intent c s else s

/-- The engine posts the current phase's CLAIM (R125). -/
def postClaim (s : State) : State := postIntent (.claim s.engine.current.request) s

/-- The engine gives up its share (R125): a RELEASE if the station is MEMBER and either the own record is not NONE or the
intent slot is busy. -/
def giveUpShare (s : State) : State :=
  if s.own != .none || s.intentBusy then postIntent .release s else s

/-! ## Faults (chapter 9) -/

/-- The Fault Record filled at a first fault, read before the engine changes (R175). -/
def State.faultRecord (s : State) (code : FaultCode) (sub : FaultSub) : FaultRecord :=
  { code := code, index := s.engine.index, kind := s.engine.current.kind, sub := sub,
    holds := if sub = .held then s.engine.holds else HoldSet.empty,
    air := s.meas.sample.air, hum := s.meas.sample.hum, later := 0, last := none }

/-- The engine's own part of entry into FAULTED (R150). -/
def Engine.faulted (e : Engine) : Engine := { e with state := .faulted, purge := .stopped, holds := HoldSet.empty }

/-- Entry into FAULTED (R173): the record, the engine's part, the share given up, the FAULT event (R180). -/
def enterFaulted (code : FaultCode) (sub : FaultSub) (s : State) : State :=
  let r := s.faultRecord code sub
  let s1 := (s.setFault (some r)).setEngine s.engine.faulted
  emit .fault r.index code.code r.kind.code r.sub.code 0 (giveUpShare s1)

/-- A fault that reaches the engine in RUNNING or HELD (R172); in every other state the engine is not changed by it. -/
def raiseFault (code : FaultCode) (s : State) : State :=
  match s.engine.state with
  | .running b => enterFaulted code (.running b) s
  | .held => enterFaulted code .held s
  | .idle | .loaded | .faulted | .complete => s

/-- A later fault in the record (R176). -/
def laterFault (code : FaultCode) (s : State) : State :=
  s.setFault (s.fault.map (fun r => { r with later := if r.later = 255 then 255 else r.later + 1, last := some code }))

/-! ## Holds (section 7.7) -/

/-- Entry into HELD from RUNNING with its first reason (R141); a purge runs for the given ticks instead of giving up the
share (R143) when there are any. -/
def enterHeld (r : HoldReason) (left : Option Substate) (purgeTicks : Option Nat) (s : State) : State :=
  let set := HoldSet.empty.put r true
  let purge : Timer := match purgeTicks with
    | some n => .running n
    | none => .stopped
  let s1 := emit .holdOn s.engine.index r.code set.code (leftCode left) 0
    (s.setEngine { s.engine with state := .held, holds := set, purge := purge })
  match purgeTicks with
  | some _ => s1
  | none => giveUpShare s1

/-- A reason added while the engine is HELD (R141): recorded and reported, no other change. -/
def addReason (r : HoldReason) (s : State) : State :=
  if s.engine.holds.has r then s
  else
    emit .holdOn s.engine.index r.code (s.engine.holds.put r true).code 0 0
      (s.setEngine { s.engine with holds := s.engine.holds.put r true })

/-! ## Entering and claiming a phase (section 7.4) -/

/-- Set the substate of a RUNNING engine. -/
def setSub (b : Substate) (s : State) : State := s.setEngine { s.engine with state := .running b }

/-- Claim the current phase (R130). -/
def claimPhase (s : State) : State :=
  let req := s.engine.current.request
  if req.isZero then setSub .active (giveUpShare s)
  else
    match s.own with
    | .admitted a =>
      if a.covers req then
        (if a.sameAmounts req && !s.intentBusy then setSub .active s else postClaim (setSub .active s))
      else postClaim (setSub .claiming s)
    | .none | .waiting _ _ => postClaim (setSub .claiming s)

/-- The tests of a phase entry in their order (R129). `left` is the substate the engine had before the entry, for HOLD_ON
(R141, log 24). -/
def entryTests (left : Option Substate) (s : State) : State :=
  let k := s.engine.current.kind
  if s.meas.doorOpen then enterHeld .door left none s
  else if k.makesCondensate && s.meas.sample.tankFull then enterHeld .tank left none s
  else if k == .steam && s.meas.sample.reservoir == .empty then enterFaulted .noWater .entry s
  else if !s.isMember then setSub .regain s
  else claimPhase s

/-- Entering a phase afresh (R129): index, timers at 0, PHASE_START, then the tests. -/
def enterFresh (index : Nat) (left : Option Substate) (s : State) : State :=
  let s1 := s.setEngine { s.engine with index := index, phaseTimer := 0, limitTimer := 0 }
  let p := s1.engine.current
  entryTests left (emit .phaseStart index p.kind.code p.power p.vent p.kind.fillFlag s1)

/-- Leaving HELD (R147): RUNNING, and the phase re-entered with its timers kept. -/
def leaveHeld (s : State) : State :=
  entryTests none (s.setEngine { s.engine with holds := HoldSet.empty, purge := .stopped })

/-- A reason removed with its HOLD_OFF (R145, R146, R148). -/
def takeReason (r : HoldReason) (s : State) : State :=
  emit .holdOff s.engine.index r.code (s.engine.holds.put r false).code 0 0
    (s.setEngine { s.engine with holds := s.engine.holds.put r false })

/-- A reason removed, and HELD left if the set is then empty (R146, R147, R148). -/
def removeReason (r : HoldReason) (s : State) : State :=
  let s1 := takeReason r s
  if s1.engine.holds.isEmpty then leaveHeld s1 else s1

/-- The end of a running purge that leaves the engine HELD: the timer stops and the share is given up (R144). -/
def endPurge (s : State) : State := giveUpShare (s.setEngine { s.engine with purge := .stopped })

/-! ## Notifications (sections 4.7 and 7.5) -/

/-- The notifications the Station Table gives (R78). -/
inductive Notice where
  | admitted | waiting | none | refused | lost
deriving DecidableEq, Repr

/-- ADMITTED while RUNNING (R131). -/
def noticeAdmitted (b : Substate) (s : State) : State :=
  let req := s.engine.current.request
  let covered := s.own.coversRequest req
  match b with
  | .claiming => if covered then setSub .active s else s
  | .waiting => if covered then setSub .active s else postClaim (setSub .claiming s)
  | .active => if covered || req.isZero then s else postClaim (setSub .claiming s)
  | .regain => s

/-- WAITING while RUNNING (R132). -/
def noticeWaiting (b : Substate) (s : State) : State :=
  match b with
  | .claiming => setSub .waiting s
  | .waiting => s
  | .active => if s.engine.current.request.isZero then s else setSub .waiting s
  | .regain => s

/-- NONE while RUNNING (R133). -/
def noticeNone (b : Substate) (s : State) : State :=
  match b with
  | .claiming => s
  | .waiting => postClaim (setSub .claiming s)
  | .active => if s.engine.current.request.isZero then s else postClaim (setSub .claiming s)
  | .regain => s

/-- A notification while HELD (R142): it ends a running purge when the own record no longer holds vent units. -/
def noticeHeld (s : State) : State :=
  if s.engine.purge.isRunning && !s.own.holdsVent then endPurge s else s

/-- The engine's treatment of a notification (R131 to R135, R142, R151). -/
def notify (n : Notice) (s : State) : State :=
  match s.engine.state with
  | .running b =>
    match n with
    | .admitted => noticeAdmitted b s
    | .waiting => noticeWaiting b s
    | .none => noticeNone b s
    | .refused => raiseFault .claimRefused s
    | .lost => setSub .regain s
  | .held =>
    match n with
    | .admitted | .waiting | .none => noticeHeld s
    | .refused => raiseFault .claimRefused s
    | .lost => s.setEngine { s.engine with purge := .stopped }
  | .idle | .loaded | .faulted | .complete => s

/-- The report of the station's entry into MEMBER (R135): an engine in REGAIN re-enters its phase. -/
def memberEntered (s : State) : State :=
  match s.engine.state with
  | .running .regain => entryTests (some .regain) s
  | .running .claiming | .running .waiting | .running .active => s
  | .idle | .loaded | .held | .faulted | .complete => s

/-! ## Phase end (section 7.6) -/

/-- Whole seconds of a timer (R136, log 18). -/
def wholeSeconds (ticks : Nat) : Nat := ticks / Config.ticksPerSecond

/-- The cycle completes (R139). -/
def completeCycle (s : State) : State :=
  let s1 := giveUpShare (s.setEngine { s.engine with state := .complete })
  emit .cycleDone s.engine.index s.engine.phases.length s.engine.cls 0 0 s1

/-- The current phase ends with outcome CONDITION (1) or LIMIT (2) (R138). -/
def endPhase (outcome : Nat) (s : State) : State :=
  let secs := wholeSeconds s.engine.phaseTimer
  let s1 := emit .phaseEnd s.engine.index s.engine.current.kind.code outcome (secs / 256) secs s
  if s.engine.index + 1 < s.engine.phases.length then enterFresh (s.engine.index + 1) (some .active) s1
  else completeCycle s1

/-- The phase timer of an ACTIVE TIME phase reaches the duration (R137). -/
def durationReached (s : State) : State :=
  if s.engine.state = .running .active ∧ s.engine.current.stop = .time then
    endPhase 1 (s.setEngine { s.engine with phaseTimer := s.engine.current.duration * Config.ticksPerSecond })
  else s

/-- The limit timer of an ACTIVE phase of another end reaches its limit (R137): PROCEED ends the phase, FAULT raises
PHASE_LIMIT. -/
def limitReached (s : State) : State :=
  if s.engine.state = .running .active ∧ s.engine.current.stop ≠ .time then
    let t := s.engine.current.limit * Config.ticksPerSecond
    let s1 := s.setEngine { s.engine with phaseTimer := t, limitTimer := t }
    if s.engine.current.onLimitFault then raiseFault .phaseLimit s1 else endPhase 2 s1
  else s

/-! ## Door and purge (R143, R144, R145) -/

/-- A purge starts when the door opens on an ACTIVE phase that holds vent, as a MEMBER, with a purge time (R143). -/
def State.purgeStarts (s : State) : Bool :=
  s.engine.state == .running .active && s.isMember && s.own.holdsVent && s.cfg.purgeTime != 0

/-- The door state changed to open (R143). -/
def doorOpened (s : State) : State :=
  match s.engine.state with
  | .running b =>
    enterHeld .door (some b)
      (if s.purgeStarts then some (s.cfg.purgeTime.toNat * Config.ticksPerSecond) else none) s
  | .held => addReason .door s
  | .idle | .loaded | .faulted | .complete => s

/-- The door state changed to closed (R145): DOOR is removed, a running purge stops, and the phase is re-entered or, if other
reasons remain after a purge, the share is given up. -/
def doorClosed (s : State) : State :=
  if s.engine.state = .held ∧ s.engine.holds.door then
    let s1 := takeReason .door s
    if s1.engine.holds.isEmpty then leaveHeld s1
    else if s.engine.purge.isRunning then endPurge s1
    else s1
  else s

/-- The purge timer runs out (R144). -/
def purgeRanOut (s : State) : State := if s.engine.purge.isRunning then endPurge s else s

end Sys2Proof.Machine
end

