-- ==== Sys2Proof/Machine/Sampling.lean ====
section
/-! DEFINITION. The Measurement Unit (sections 8.1 to 8.3): a sample set with its condition reports, the door, and what a reset
makes of the whole part (R192). -/

namespace Sys2Proof.Machine

/-! ## Condition reports (R158, R172, R176) -/

/-- An invalid-run count after a reading (R155). -/
def runCount (valid : Bool) (n : Nat) : Nat := if valid then 0 else if n < 255 then n + 1 else 255

/-- One condition report reaches the engine (R172). In FAULTED it is a later fault if it is an onset or comes after the report
of the same sample that took the engine into FAULTED (R176). -/
def report (code : FaultCode) (onset sameSample : Bool) (s : State) : State :=
  match s.engine.state with
  | .running _ | .held => raiseFault code s
  | .faulted => if onset || sameSample then laterFault code s else s
  | .idle | .loaded | .complete => s

/-- A condition with its presence at this sample and at the previous one. -/
structure Condition where
  code : FaultCode
  present : Bool
  before : Bool
deriving DecidableEq, Repr

/-- The three conditions at a sample, in the order of their reports (R158, R159), tested on the engine as it stands when the
sample is taken. -/
def conditionsAt (s : State) (m : Sample) : List Condition :=
  [⟨.overTemp, overTempAt s.engine m, s.meas.markOverTemp⟩,
   ⟨.sensor, sensorAt (runCount m.air.isSome s.meas.airBad) (runCount m.hum.isSome s.meas.humBad), s.meas.markSensor⟩,
   ⟨.noWater, noWaterAt s.engine m, s.meas.markNoWater⟩]

/-- The latest sample stored whole, with the counts and the presence marks it sets (R153, R155, R158). -/
def storeSample (m : Sample) (s : State) : State :=
  let air := runCount m.air.isSome s.meas.airBad
  let hum := runCount m.hum.isSome s.meas.humBad
  s.setMeas { s.meas with
    sample := m, airBad := air, humBad := hum, markOverTemp := overTempAt s.engine m, markSensor := sensorAt air hum,
    markNoWater := noWaterAt s.engine m }

/-- The reports of the conditions present (R158). -/
def reportAll (sameSample : Bool) (cs : List Condition) (s : State) : State :=
  cs.foldl (fun t c => if c.present then report c.code (!c.before) sameSample t else t) s

/-! ## The sample at the engine (R137, R146, R156) -/

/-- The end-condition test of the sample (R137): only an ACTIVE phase is tested. -/
def endTest (s : State) : State :=
  if s.engine.state = .running .active ∧ s.engine.current.endMet s.meas.sample then endPhase 1 s else s

/-- The tank test of the sample (R146). -/
def tankTest (s : State) : State :=
  if s.meas.sample.tankFull then
    if s.engine.current.kind.makesCondensate then
      match s.engine.state with
      | .running b => enterHeld .tank (some b) none s
      | .held => addReason .tank s
      | .idle | .loaded | .faulted | .complete => s
    else s
  else if s.engine.state = .held ∧ s.engine.holds.tank then removeReason .tank s
  else s

/-- LEVEL_LOW (R156): once for each started cycle. The engine is asked after it has handled the same sample, and the phase
index and kind are those it then has, which R156 leaves open (DESIGN CHOICE, log 37). -/
def levelLow (s : State) : State :=
  if s.meas.sample.reservoir = .low ∧ s.engine.state.underWay ∧ ¬ s.meas.lowReported then
    emit .levelLow s.engine.index s.meas.sample.reservoir.code s.engine.current.kind.code 0 0
      (s.setMeas { s.meas with lowReported := true })
  else s

/-- The engine's handling of a sample in the order of R153: reports, end test, tank test; then LEVEL_LOW. -/
def engineSample (sameSample : Bool) (cs : List Condition) (s : State) : State :=
  levelLow (tankTest (endTest (reportAll sameSample cs s)))

/-- A whole sample set (R153). The Load Drive's regulation is made before or after the engine's handling. -/
def sampleStep (driveFirst : Bool) (m : Sample) (s : State) : State :=
  let cs := conditionsAt s m
  let same := s.engine.state.underWay
  let s1 := storeSample m s
  if driveFirst then engineSample same cs (regulate (refresh s1))
  else regulate (refresh (engineSample same cs s1))

/-- The sample set of the given inputs, from which the next second is counted (R153); three free values round the two readings
and order the step (log 3, log 4). -/
def takeSample (inp : Sensors) (s : State) : State :=
  let s1 := (s.setFree (s.free + 3)).setMeas
    { s.meas with inputs := inp, nextSample := .running Config.ticksPerSecond }
  sampleStep (Config.freeBit (s.free + 2)) (sampleOf (Config.freeBit s.free) (Config.freeBit (s.free + 1)) inp) s1

/-! ## The door (R157) -/

/-- An edge of the DOOR input: the debounce timer restarts when the level now differs from the door state, and stops when it
does not. -/
def edgeDoor (s : State) : State :=
  let closed := !s.meas.doorPinClosed
  s.setMeas { s.meas with
    doorPinClosed := closed
    debounce := if closed = s.meas.doorOpen then .running Config.debounceTicks else .stopped }

/-- The debounce timer runs out: the door state takes the input's level and the change goes to the engine (R143, R145). -/
def changeDoor (s : State) : State :=
  if s.meas.debounce.isRunning then
    let s1 := s.setMeas { s.meas with doorOpen := !s.meas.doorPinClosed, debounce := .stopped }
    if s1.meas.doorOpen then doorOpened s1 else doorClosed s1
  else s

/-! ## Reset (R192) -/

/-- The Measurement Unit as a reset ends: the first sample taken (R153, R155, R158), the door OPEN and its timer started if the
input reads closed (R157). -/
def measAfterReset (airUp humUp : Bool) (inp : Inputs) : Meas :=
  let m := sampleOf airUp humUp inp.sensors
  { sample := m, airBad := runCount m.air.isSome 0, humBad := runCount m.hum.isSome 0, lowReported := false,
    inputs := inp.sensors, nextSample := .running Config.ticksPerSecond, doorOpen := true, doorPinClosed := inp.doorClosed,
    debounce := if inp.doorClosed then .running Config.debounceTicks else .stopped,
    markOverTemp := overTempAt Engine.reset m,
    markSensor := sensorAt (runCount m.air.isSome 0) (runCount m.hum.isSome 0), markNoWater := false }

/-- Every block at its reset values (R192). A transaction in progress is ignored to its end, with SDO at high impedance
(DESIGN CHOICE, log 38). The queue of commands and the count of free values are the model's own and stay. -/
def resetPart (inp : Inputs) (s : State) : State :=
  { State.reset with
    pending := s.pending
    free := s.free + 2
    meas := measAfterReset (Config.freeBit s.free) (Config.freeBit (s.free + 1)) inp
    port := { Port.reset with txn := if inp.ncsLow then .ignored else .closed } }

end Sys2Proof.Machine
end

