-- ==== Sys2Proof/Machine/Cabinet.lean ====
section
/-! DEFINITION. The cabinet's inputs and the resets (R153, R157, R192), one meaning per row. -/

namespace Sys2Proof.Machine

/-- SAMPLE_SET (R153). -/
def execSampleSet (inp : Sensors) (s : State) : Host.Outcome State Fault Refusal := finish (takeSample inp s)

/-- DOOR_EDGE (R157). -/
def execDoorEdge (s : State) : Host.Outcome State Fault Refusal := finish (edgeDoor s)

/-- DOOR_CHANGE (R157, R143, R145). -/
def execDoorChange (s : State) : Host.Outcome State Fault Refusal := finish (changeDoor s)

/-- POWER_ON (R192). -/
def execPowerOn (inp : Inputs) (s : State) : Host.Outcome State Fault Refusal := finish (resetPart inp s)

/-- RESET_PIN (R192): NRST low and released again. -/
def execResetPin (inp : Inputs) (s : State) : Host.Outcome State Fault Refusal := finish (resetPart inp s)

end Sys2Proof.Machine
end

