-- ==== Sys2Proof/Machine/Transitions.lean ====
section
/-! DEFINITION. Station Control (chapter 5): every transition of the station state with the effects it orders, in their order. -/

namespace Sys2Proof.Machine

/-! ## Shared effects of a transition -/

/-- STATION_STATE (R106): the state before, the state now, the cause and a qualifier. -/
def stationEvent (before : StationState) (cause : Cause) (qualifier : Nat) (s : State) : State :=
  emit .stationState s.ownId before.code s.control.station.code cause.code qualifier s

/-- COMMAND_DONE for an awaited command (R106). -/
def commandDone (a : Awaited) (cause : Cause) (s : State) : State :=
  emit .commandDone s.ownId a.code s.control.station.code cause.code 0
    (s.setControl { s.control with awaited := none })

/-- COMMAND_DONE where the awaited command is START STATION or REJOIN (R93, R99). -/
def completeJoin (cause : Cause) (s : State) : State :=
  match s.control.awaited with
  | some .startStation => commandDone .startStation cause s
  | some .rejoin => commandDone .rejoin cause s
  | some .leaveStation => s
  | none => s

/-- GRANT_LOST when the own record was ADMITTED before the clearing (R85). -/
def grantLost (before : Holding) (cause : Cause) (s : State) : State :=
  match before with
  | .admitted a => emit .grantLost s.ownId cause.code a.power a.vent a.fill s
  | .none | .waiting _ _ => s

/-- Clearing of the table, with the LOST it gives the engine (R40, R81). -/
def clearTable (s : State) : State := notify .lost (s.setTable (s.table.clear s.ownId))

/-- The list emptied (R36). -/
def emptyList (s : State) : State := s.setOut s.out.emptied

/-- The list emptied with the own-drop count set to 0 (R35, R36). -/
def resetList (s : State) : State := s.setOut { s.out.emptied with drops := 0 }

/-- Station Control posts a ROLLCALL carrying the configured budgets (R27). -/
def postRollcall (s : State) : State :=
  post .rollcall (.rollcall s.cfg.powerBudget s.cfg.ventBudget s.cfg.fillBudget) s

/-! ## GATHERING (R90) -/

/-- The effects common to every entry into GATHERING (R90), the list already treated as R36 requires. -/
def enterGathering (cause : Cause) (qualifier : Nat) (s : State) : State :=
  let before := s.control.station
  let held := s.own
  let s1 := s.setControl { s.control with station := .gathering, answered := false }
  postRollcall (grantLost held cause (stationEvent before cause qualifier (clearTable s1)))

/-- A resync or a REJOIN from MEMBER (R95, R96). -/
def resync (cause : Cause) (s : State) : State :=
  let s1 := bump .resyncs (s.setControl { s.control with memberTimer := .stopped })
  enterGathering cause 0 (emptyList s1)

/-- A restart of gathering with the finding as qualifier (R94). -/
def restartGathering (finding : Cause) (s : State) : State :=
  let s1 := bump .gatherRestarts s
  enterGathering .gatherRestart finding.code (s1.setOut s1.out.withdrawAll)

/-! ## ISOLATED (R99) -/

/-- The rejoin timer runs for DEAF and SILENT only (R99). -/
def rejoinTimerFor (c : Settings) : Cause → Timer
  | .deaf | .silent => .running c.leaseTicks
  | .start | .windowClosed | .selfLease | .sequenceGap | .unknownSender | .selfExpired | .gatherRestart | .rejoin
  | .autoRejoin | .budget | .duplicate | .leaveStation | .leaveApplied | .leaveDropped | .inconsistent => .stopped

/-- Entry into ISOLATED (R99). -/
def isolate (cause : Cause) (s : State) : State :=
  let before := s.control.station
  let held := s.own
  let s1 := s.setControl { s.control with
    station := .isolated, isolation := some cause, memberTimer := .stopped, answered := false, run := 0 }
  let s2 := clearTable (resetList s1)
  let s3 := s2.setControl { s2.control with rejoinTimer := rejoinTimerFor s2.cfg cause }
  completeJoin cause (grantLost held cause (stationEvent before cause s3.control.rejoins s3))

/-! ## OFFLINE (R104) -/

/-- The Line Interface DETACHED at once, SLINE released, what was being sent cut short (R18, R104). -/
def Line.detach (l : Line) : Line :=
  { l with state := .detached, recessive := 0, phase := 0, tx := none, rx := [], slot := .none }

/-- Entry into OFFLINE from LEAVING (R104). -/
def goOffline (cause : Cause) (s : State) : State :=
  let before := s.control.station
  let held := s.own
  let s1 := (s.setControl { s.control with station := .offline }).setLine s.line.detach
  let s2 := resetList s1
  let s3 := notify .lost (s2.setTable s2.table.clearAll)
  let s4 := s3.setControl { s3.control with
    isolation := none, rejoins := 0, run := 0, rejoinTimer := .stopped, memberTimer := .stopped, answered := false }
  let s5 := grantLost held cause (stationEvent before cause 0 s4)
  match s5.control.awaited with
  | some .leaveStation => commandDone .leaveStation cause s5
  | some .startStation => s5
  | some .rejoin => s5
  | none => s5

/-! ## MEMBER (R93) -/

/-- A renewal owed on entry into MEMBER (R49). -/
def postOwedRenewal (s : State) : State :=
  if s.table.renewal = .runOut then post .standing .standing s else s

/-- Entry into MEMBER (R93): a run-out self-lease resyncs before the entry is reported to the engine (R50). -/
def enterMember (s : State) : State :=
  let before := s.control.station
  let s1 := s.setControl { s.control with
    station := .member, answered := false, memberTimer := .running s.cfg.leaseTicks }
  let s2 := s1.setTable s1.table.dropGathered
  let s3 := completeJoin .windowClosed (stationEvent before .windowClosed 0 s2)
  let s4 := postOwedRenewal s3
  if s4.table.selfLease = .runOut then resync .selfLease s4 else memberEntered s4

/-- The close of the window is told to Station Control (R92). -/
def windowClosed (s : State) : State :=
  if s.control.station = .gathering ∧ s.control.answered then enterMember s else s

/-! ## Reports (R97, R98) -/

/-- The step for DEAF or SILENT by the station's state (R98). -/
def failed (cause : Cause) (s : State) : State :=
  match s.control.station with
  | .gathering | .member => isolate cause s
  | .leaving => goOffline cause s
  | .offline | .isolated => s

/-- The report of an objection (R97): the run, and DEAF when it reaches 16. None is reported in OFFLINE or ISOLATED (R98). -/
def reportObjection (s : State) : State :=
  if s.control.station.takesPart then
    let s1 := s.setControl { s.control with run := s.control.run + 1 }
    if 16 ≤ s.control.run + 1 then failed .deaf s1 else s1
  else s

/-- What follows a finding, by the station's state (R42). -/
def onFinding (f : Cause) (s : State) : State :=
  match s.control.station with
  | .gathering => if f = .duplicate ∨ f = .budget then isolate f s else restartGathering f s
  | .member =>
    if f = .duplicate then isolate f s
    else if f = .unknownSender ∨ f = .sequenceGap ∨ f = .selfExpired then resync f s
    else s
  | .leaving | .offline | .isolated => s

/-! ## Timers of Station Control -/

/-- The rejoin timer runs out in ISOLATED (R101). -/
def rejoinTimeout (s : State) : State :=
  if s.control.rejoinTimer.isRunning ∧ s.control.station = .isolated then
    if s.control.rejoins < 3 then
      enterGathering .autoRejoin (s.control.rejoins + 1)
        (s.setControl { s.control with rejoins := s.control.rejoins + 1, rejoinTimer := .stopped, isolation := none })
    else s.setControl { s.control with rejoinTimer := .runOut }
  else s

/-- The membership timer runs out in MEMBER (R102). -/
def membershipTimeout (s : State) : State :=
  if s.control.memberTimer.isRunning ∧ s.control.station = .member then
    s.setControl { s.control with rejoins := 0, memberTimer := .runOut }
  else s

end Sys2Proof.Machine
end

