-- ==== Sys2Proof/Machine/Sending.lean ====
section
/-! DEFINITION. The Outgoing List's outcomes and drops (sections 2.3 to 2.6), and the Line Interface's start of a frame (R6). -/

namespace Sys2Proof.Machine

/-! ## Outcomes -/

/-- The kind of what an entry carries. -/
def Content.kind : Content → FrameKind
  | .expire _ _ => .expire
  | .leave => .leave
  | .release => .release
  | .claim _ => .claim
  | .rollcall _ _ _ => .rollcall
  | .standing => .standing

/-- The subject of a FRAME_DROPPED event: the target of an EXPIRE, the own id for every other kind (R34). -/
def Content.dropSubject (own : Nat) : Content → Nat
  | .expire t _ => t
  | .leave | .release | .claim _ | .rollcall _ _ _ | .standing => own

/-- What the block that posted a dropped entry does with the report (R34): R126 for an intent, R49 for a STANDING, R48 for an
EXPIRE, R91 for a ROLLCALL, R103 for a LEAVE. -/
def reportDrop (c : Content) (s : State) : State :=
  match c with
  | .claim a => postIntent (.claim a) s
  | .release => postIntent .release s
  | .standing => if s.isMember then post .standing .standing s else s
  | .expire t _ =>
    match s.table.rec? t with
    | some r => if r.lease = .runOut then postExpire t r.seq s else s
    | none => s
  | .rollcall _ _ _ => if s.control.station = .gathering then postRollcall s else s
  | .leave => if s.control.station = .leaving then goOffline .leaveDropped s else s

/-- An entry is dropped (R34): removed, reported in FRAME_DROPPED, counted, reported to its poster, and at the third
consecutive drop SILENT (R35). `cause` is 1 RETRIES or 2 ATTEMPTS (R202). -/
def dropEntry (id : SlotId) (e : Entry) (cause : Nat) (s : State) : State :=
  let s1 := s.setOut (s.out.setSlot id Slot.empty)
  let s2 := emit .frameDropped (e.content.dropSubject s.ownId) e.content.kind.code.toNat cause e.attempts e.voids s1
  let s3 := bump (if cause = 1 then .dropsByRetries else .dropsByAttempts) s2
  let drops := s3.out.drops + 1
  let s4 := reportDrop e.content (s3.setOut { s3.out with drops := drops })
  if drops = 3 then failed .silent s4 else s4

/-- The transmission in flight ends without being applied: a deferred posting takes the entry's place (R25 to R27), and
otherwise the entry counts the outcome and is pending again or dropped (R32, R33). An outcome whose entry was discarded is
ignored (R37). -/
def listFailed (cause : Nat) (s : State) : State :=
  match s.out.flight with
  | none => s
  | some id =>
    let s1 := s.setOut { s.out with flight := none }
    let sl := s1.out.slot id
    match sl.deferred with
    | some c => s1.setOut (s1.out.setSlot id ⟨some (Entry.fresh c), none⟩)
    | none =>
      match sl.entry with
      | none => s1
      | some e =>
        if cause = 1 then
          let e1 : Entry := { e with voids := e.voids + 1 }
          if s.cfg.retryLimit.toNat < e1.voids then dropEntry id e1 1 s1
          else s1.setOut (s1.out.setSlot id ⟨some e1, none⟩)
        else
          let e1 : Entry := { e with attempts := e.attempts + 1 }
          if s.cfg.attemptLimit.toNat < e1.attempts then dropEntry id e1 2 s1
          else s1.setOut (s1.out.setSlot id ⟨some e1, none⟩)

/-- The outcome applied (R31, R37): the sequence advances (R24), the own-drop count is 0 (R35), the entry leaves its slot and
a deferred posting is installed (log 21). -/
def listApplied (s : State) : State :=
  let s1 := s.setOut { s.out with seq := s.out.seq + 1, drops := 0, flight := none }
  match s.out.flight with
  | none => s1
  | some id => s1.setOut (s1.out.setSlot id ⟨(s1.out.slot id).deferred.map Entry.fresh, none⟩)

/-! ## Starting a frame (R6) -/

/-- The payload a content is sent with (R8, R201). A STANDING is composed from the own record at this moment (R26). -/
def State.payloadOf (s : State) : Content → Payload
  | .expire t q => ⟨byteOf t, q, 0, 0, 0, 0⟩
  | .leave | .release => Payload.zero
  | .claim a => Payload.ofRequest a
  | .rollcall p v f => ⟨p, v, f, 0, 0, 0⟩
  | .standing =>
    Payload.ofStanding s.cfg.powerBudget s.cfg.ventBudget s.cfg.fillBudget (StandingFields.ofHolding s.own s.ownPosition)

/-- The frame an entry is sent as (R8): the sender id in use and the own line sequence of this moment (R24). -/
def State.frameOf (s : State) (c : Content) : Frame :=
  { kind := c.kind, sender := BitVec.ofNat 4 s.line.id.toNat, seq := s.out.seq, payload := s.payloadOf c }

/-- The interface takes the entry the list offers and begins its start bit (R6, R30). A station that does not take part in
the line sends nothing (R18). -/
def sendStart (s : State) : State :=
  match if s.control.station.takesPart then s.out.offer s.table.windowOpen else none with
  | none => s
  | some id =>
    match (s.out.slot id).entry with
    | none => s
    | some e =>
      (s.setLine { s.line with state := .sending, tx := some (s.frameOf e.content), phase := 0 }).setOut
        { s.out with flight := some id }

/-- The roll-call window closes at an idle after its timer ran out (R61), and Station Control is told (R62). -/
def closeWindow (s : State) : State :=
  if s.table.windowOpen ∧ s.table.windowTimer = .runOut then
    windowClosed (s.setTable { s.table with windowOpen := false, windowTimer := .stopped })
  else s

/-- A peer's start bit is heard first: the interface becomes a receiver of that frame and offers nothing until the line is
next IDLE (R5, R6). -/
def hearStart (s : State) : State := s.setLine { s.line with state := .receiving, recessive := 0, phase := 0 }

/-- The interface is IDLE (R4): the window may close, and the offered entry is taken unless a peer's start bit is heard
first (R6). -/
def atIdle (deferred : Bool) (s : State) : State :=
  let s1 := closeWindow (s.setLine { s.line with state := .idle, recessive := 5, phase := 0, rx := [] })
  if deferred then hearStart s1 else sendStart s1

end Sys2Proof.Machine
end

