-- ==== Sys2Proof/Machine/TakeIn.lean ====
section
/-! DEFINITION. The Station Table takes in a delivered frame (chapters 3 and 4): the tests, each kind's effect, the findings,
the events and the notifications to the engine. -/

namespace Sys2Proof.Machine

/-! ## Events and notifications about the own record -/

/-- GRANT and the notification ADMITTED (R79, R80, R84). -/
def grant (s : State) : State :=
  match s.own with
  | .admitted a => notify .admitted (emit .grant s.ownId a.power a.vent a.fill a.kind.code s)
  | .none | .waiting _ _ => s

/-- ADMITTED after a heard frame whose scan admitted the own record from WAITING, while MEMBER (R80). -/
def noticeHeard (wasWaiting : Bool) (s : State) : State :=
  if s.isMember && wasWaiting && s.own.isAdmitted then grant s else s

/-- The notification of an own CLAIM or RELEASE by its outcome, while MEMBER (R79). -/
def noticeOwn (refused : Bool) (s : State) : State :=
  if s.isMember then
    if refused then notify .refused s
    else
      match s.own with
      | .admitted _ => grant s
      | .waiting _ _ => notify .waiting s
      | .none => notify .none s
  else s

/-- OWN_OUTCOME (R83) and then the notification (R79): kind, outcome (R72), position if WAITING, and the sequence carried. -/
def ownOutcome (kind : FrameKind) (refused : Bool) (seq : Byte) (s : State) : State :=
  let outcome := if refused then 3 else s.own.code
  let position := if s.own.isWaiting then s.ownPosition else 0
  noticeOwn refused (emit .ownOutcome s.ownId kind.code.toNat outcome position seq.toNat s)

/-! ## Withdrawals (R29) -/

/-- The withdrawal of a pending EXPIRE for an id. -/
def withdraw (id : Nat) (s : State) : State := s.setOut (s.out.withdraw id)

/-! ## The effect of each kind -/

/-- A peer removed, with MEMBER_REMOVED and then the scan (R41, R77). `cause` is 1 EXPIRE, 2 LEAVE or 3 BUDGET (R202). -/
def removePeer (id cause : Nat) (s : State) : State :=
  let s1 := emit .memberRemoved id cause 0 0 0 (s.setTable (s.table.remove id))
  s1.setTable (s1.table.scan s1.cfg)

/-- A stale EXPIRE (R53); `withdrew` says that this frame withdrew the station's own EXPIRE for the target. -/
def staleExpire (target : Nat) (withdrew : Bool) (s : State) : State :=
  let s1 := bump .staleExpiries s
  if withdrew then
    match s1.table.rec? target with
    | some r => if r.lease = .runOut then postExpire target r.seq s1 else s1
    | none => s1
  else s1

/-- An applied EXPIRE (R51, R52, R53). -/
def applyExpire (target : Nat) (q : Byte) (withdrew : Bool) (s : State) : State × Option Cause :=
  match s.table.rec? target with
  | some r =>
    if r.seq = q then
      if target = s.ownId then (s, some .selfExpired) else (removePeer target 1 s, none)
    else (staleExpire target withdrew s, none)
  | none => (staleExpire target withdrew s, none)

/-- The budgets a payload carries equal the configured ones (R55, R58, R59). -/
def sameBudgets (c : Settings) (p : Payload) : Bool :=
  p.p0 == c.powerBudget && p.p1 == c.ventBudget && p.p2 == c.fillBudget

/-- A sender with foreign budgets is counted and reported (R55, R58, R59). -/
def budgetRejected (kind : FrameKind) (sender : Nat) (p : Payload) (s : State) : State :=
  emit .budgetRejected sender kind.code.toNat p.p0.toNat p.p1.toNat p.p2.toNat (bump .budgetRejections s)

/-- A peer added with MEMBER_ADDED (R55, R59, R60). -/
def addPeer (kind : FrameKind) (id : Nat) (seq : Byte) (h : Holding) (s : State) : State :=
  emit .memberAdded id kind.code.toNat h.code 0 0 (s.setTable (s.table.add id seq s.cfg.leaseTicks h))

/-- The sender's record at an applied ROLLCALL, heard from a peer (R55). -/
def rollcallPeer (f : Frame) (s : State) : State :=
  let id := f.sender.toNat
  let equal := sameBudgets s.cfg f.payload
  match s.table.rec? id with
  | none => if equal then addPeer .rollcall id f.seq .none s else budgetRejected .rollcall id f.payload s
  | some _ =>
    if equal then s.setTable (((s.table.renew id f.seq s.cfg.leaseTicks).giveUp id).scan s.cfg)
    else removePeer id 3 (budgetRejected .rollcall id f.payload s)

/-- The roll-call window opens or restarts (R56, R61), and a MEMBER posts a STANDING (R56). -/
def openWindow (s : State) : State :=
  let s1 := s.setTable { s.table with
    windowOpen := true, windowTimer := .running (Config.windowBits * bitTicks s.line.rate) }
  if s1.isMember then post .standing .standing s1 else s1

/-- The carried content differs from the sender's record, absent values compared as zero (R58). -/
def disagrees (f : StandingFields) (h : Holding) (position : Nat) : Bool :=
  let r := StandingFields.ofHolding h position
  f.malformed || f.standing != r.standing || f.power != r.power || f.vent != r.vent || f.fill != r.fill ||
    f.kind != r.kind || (f.standing == 2 && f.position != position)

/-- A heard STANDING from a PRESENT sender, past the sequence test (R58). -/
def standingKnown (f : Frame) (s : State) : State × Option Cause :=
  let id := f.sender.toNat
  let equal := sameBudgets s.cfg f.payload
  if !equal && s.control.station == .gathering then (s, some .budget)
  else
    let s1 := if equal then s else budgetRejected .standing id f.payload s
    let c := f.payload.standingFields
    let position := queuePos s1.table.queue id
    if disagrees c (s1.table.holding id) position then
      (emit .standingDisagrees id c.standing c.position (s1.table.holding id).code position (bump .disagreements s1), none)
    else (s1, none)

/-- A GATHERING station adds an unknown sender with content (R60). -/
def addGathered (f : Frame) (s : State) : State × Option Cause :=
  let id := f.sender.toNat
  let c := f.payload.standingFields
  match PhaseKind.ofCode? c.kind with
  | none => (s, some .inconsistent)
  | some k =>
    let a : Share := ⟨c.power, c.vent, c.fill, k⟩
    if c.standing = 1 then
      (if s.table.fits s.cfg a then (addPeer .standing id f.seq (.admitted a) s, none) else (s, some .inconsistent))
    else
      let s1 := addPeer .standing id f.seq (.waiting a (some c.position)) s
      (s1.setTable { s1.table with queue := s1.table.insertGathered id c.position s1.table.queue }, none)

/-- A heard STANDING from an ABSENT sender (R59). -/
def standingUnknown (f : Frame) (s : State) : State × Option Cause :=
  let id := f.sender.toNat
  let c := f.payload.standingFields
  if !sameBudgets s.cfg f.payload then
    if s.control.station = .gathering then (s, some .budget) else (budgetRejected .standing id f.payload s, none)
  else if c.standing = 0 ∧ ¬ c.malformed then (addPeer .standing id f.seq .none s, none)
  else if s.control.station = .gathering then
    (if c.malformed then (s, some .inconsistent) else addGathered f s)
  else (s, some .unknownSender)

/-! ## Taking in (section 3.2) -/

/-- A heard frame from a PRESENT sender that carries the next sequence (R45): the record renewed, the withdrawals made, and
the kind applied. -/
def applyHeard (f : Frame) (s : State) : State × Option Cause :=
  let id := f.sender.toNat
  let s1 := withdraw id (s.setTable (s.table.renew id f.seq s.cfg.leaseTicks))
  match f.kind with
  | .expire =>
    let target := f.payload.p0.toNat
    applyExpire target f.payload.p1 (s1.out.expirePending target) (withdraw target s1)
  | .leave => (removePeer id 2 s1, none)
  | .release => (s1.setTable ((s1.table.giveUp id).scan s1.cfg), none)
  | .claim => (s1.setTable ((s1.table.claim s1.cfg id f.payload).scan s1.cfg), none)
  | .rollcall => (s1, none)
  | .standing => standingKnown f s1

/-- The tests of a heard frame (R43, R44, R45) and its effect, or the finding that stops it (R42). -/
def takeHeardCore (f : Frame) (s : State) : State × Option Cause :=
  let id := f.sender.toNat
  if id = s.ownId then (s, some .duplicate)
  else if id = 0 then (s, none)
  else if f.kind = .rollcall then (openWindow (withdraw id (rollcallPeer f s)), none)
  else
    match s.table.rec? id with
    | none => if f.kind = .standing then standingUnknown f s else (s, some .unknownSender)
    | some r => if f.seq = r.seq + 1 then applyHeard f s else (s, some .sequenceGap)

/-- A heard frame taken in: its finding goes to Station Control (R42), otherwise the engine is notified (R80). -/
def takeHeard (f : Frame) (s : State) : State :=
  match takeHeardCore f s with
  | (s1, some finding) => onFinding finding s1
  | (s1, none) => noticeHeard s.own.isWaiting s1

/-- An own frame updates the own record's sequence and restarts the renewal and self-lease timers (R46). -/
def renewOwn (seq : Byte) (s : State) : State :=
  let t := match s.table.rec? s.ownId with
    | some r => s.table.put s.ownId (some { r with seq := seq })
    | none => s.table
  s.setTable { t with renewal := .running s.cfg.renewalTicks, selfLease := .running s.cfg.selfLeaseTicks }

/-- The roll-call answered flag (R91): the own ROLLCALL was taken in and no later one waits in the list. -/
def markAnswered (s : State) : State :=
  if s.control.station = .gathering ∧ s.out.rollcall.entry = none ∧ s.out.rollcall.deferred = none then
    s.setControl { s.control with answered := true }
  else s

/-- An own frame taken in (R46 and the kind's rule). -/
def takeOwn (f : Frame) (s : State) : State :=
  let s1 := renewOwn f.seq s
  let id := s1.ownId
  match f.kind with
  | .expire =>
    match applyExpire f.payload.p0.toNat f.payload.p1 false s1 with
    | (s2, some finding) => onFinding finding s2
    | (s2, none) => s2
  | .leave => goOffline .leaveApplied s1
  | .release => ownOutcome .release false f.seq (s1.setTable ((s1.table.giveUp id).scan s1.cfg))
  | .claim =>
    ownOutcome .claim (claimRefused s1.cfg f.payload) f.seq
      (s1.setTable ((s1.table.claim s1.cfg id f.payload).scan s1.cfg))
  | .rollcall => openWindow (markAnswered (s1.setTable ((s1.table.giveUp id).scan s1.cfg)))
  | .standing => s1

end Sys2Proof.Machine
end

