-- ==== Sys2Proof/Machine/LineEnd.lean ====
section
/-! DEFINITION. The end of a frame on the line (sections 1.5 to 1.13): arbitration, findings, the objection decision, the
outcome and the delivery. -/

namespace Sys2Proof.Machine

/-- A leading mark was missing before the objection slot (R3, R10). -/
def Reading.markFault (r : Reading) : Bool := r.markFaultAt.isSome

/-- A receiver's CRC mismatch (R11): not looked for after a symbol error. -/
def Reading.crcBad (kind : BitVec 4) (r : Reading) : Bool :=
  !r.markFault && r.check != checkOf kind r.sender r.seq r.payload

/-- Any finding of a receiver against the frame (R3, R11, R14). -/
def Reading.finding (kind : BitVec 4) (r : Reading) : Bool :=
  r.markFault || r.crcBad kind || r.slot1Fault || r.slot2Fault

/-- What a station does in the objection slot (R12, R13, R18): it objects for a finding before the slot, objects in the second
bit for a mark missing in the first, and echoes a first bit read dominant. -/
def slotDecision (mayObject findingBefore slot1Fault slot1Dominant : Bool) : SlotAct :=
  if !mayObject then .none
  else if findingBefore then .objected
  else if slot1Fault then .objectedSecond
  else if slot1Dominant then .echoed
  else .none

/-- The decision is an objection of the station's own (R12); an echo is not (R13). -/
def SlotAct.isObjection : SlotAct → Bool
  | .objected | .objectedSecond => true
  | .none | .echoed => false

/-- The interface at the end of a frame (R4, R14): WAIT_IDLE, with the slot decision it made. -/
def Line.frameEnded (l : Line) (d : SlotAct) : Line :=
  { l with state := .waitIdle, recessive := 0, phase := 0, tx := none, rx := [], slot := d }

/-- An objection is counted and reported (R12). -/
def countObjection (s : State) : State := reportObjection (bump .objections s)

/-- Delivery of an applied frame of a defined kind (R15): counted, the DEAF run ended (R97), and taken in. -/
def deliver (own : Bool) (f : Frame) (s : State) : State :=
  let s1 := bump .framesApplied s
  let s2 := s1.setControl { s1.control with run := 0 }
  if own then takeOwn f s2 else takeHeard f s2

/-- The end of a frame sent by another station (R12 to R18). -/
def heardEnd (kind : BitVec 4) (r : Reading) (void : Bool) (s : State) : State :=
  let part := s.control.station.takesPart
  let d := slotDecision part (r.markFault || r.crcBad kind) r.slot1Fault r.slot1Dominant
  let s1 := s.setLine (s.line.frameEnded d)
  let s2 := if r.finding kind then bump .receptionErrors s1 else s1
  let s3 := if d.isObjection then countObjection s2 else s2
  if void || r.finding kind then s3
  else
    match FrameKind.ofCode? kind with
    | none => bump .undefinedKinds s3
    | some k => if part then deliver false ⟨k, r.sender, r.seq, r.payload⟩ s3 else s3

/-- A sender's own findings make its outcome void even if the second objection bit reads recessive (R10, R14). -/
def ownFinding (driveFault : Bool) (r : Reading) : Bool := driveFault || r.slot1Fault || r.slot2Fault

/-- The outcome of the station's own transmission reported to the list (R14, R31, R32). A transmission cut short by entry into
OFFLINE reports none (R37). -/
def ownOutcomeReport (f : Frame) (part applied : Bool) (s : State) : State :=
  if s.line.state = .detached then s
  else if applied then
    let s1 := listApplied (bump .ownApplied s)
    if part then deliver true f s1 else s1
  else listFailed 1 (bump .ownVoided s)

/-- The end of a frame the station sent (R10, R12, R14). Where the objection would bring the run to 16 the list's outcome may
be taken before its report (R98), which a free value decides; otherwise the objection comes first (log 5). -/
def ownEnd (f : Frame) (r : Reading) (driveFault void : Bool) (s : State) : State :=
  let part := s.control.station.takesPart
  let d := slotDecision part driveFault r.slot1Fault r.slot1Dominant
  let applied := !void && !ownFinding driveFault r
  let s1 := s.setLine (s.line.frameEnded d)
  if d.isObjection then
    if 15 ≤ s.control.run then
      let s2 := s1.setFree (s1.free + 1)
      if Config.freeBit s.free then countObjection (ownOutcomeReport f part applied s2)
      else ownOutcomeReport f part applied (countObjection s2)
    else ownOutcomeReport f part applied (countObjection s1)
  else ownOutcomeReport f part applied s1

/-- Arbitration is lost (R9): counted, reported to the list (R33), and the interface receives the winner's frame, whose first
bits it keeps. -/
def loseArbitration (kept : List Bool) (s : State) : State :=
  let s1 := bump .arbitrationLosses
    (s.setLine { s.line with state := .receiving, recessive := 0, phase := 0, tx := none, rx := kept })
  listFailed 2 s1

/-- How a sender fares against what it reads back (R9, R10): a fault of the start bit comes before any contest, then the first
difference decides, and a mark of its own missing after bits that all agree is a drive fault. -/
def Reading.fares (kind : BitVec 4) (r : Reading) (f : Frame) : Contest :=
  if r.startFault then .driveFault
  else
    match r.markFaultAt with
    | none => contest f.dataBits (r.dataBits kind)
    | some n =>
      match contest (f.dataBits.take n) (r.dataBits kind) with
      | .lost => .lost
      | .kept => .driveFault
      | .driveFault => .driveFault

/-- The end of one frame as this station met it (R4, R5, R9, R10). In WAIT_IDLE and DETACHED it is no frame to the station
(log 11). While SENDING, what was read back decides whether the frame is the station's own (log 12). -/
def frameEnd (kind : BitVec 4) (r : Reading) (void : Bool) (s : State) : State :=
  match s.line.state with
  | .detached => s
  | .waitIdle => s.setLine { s.line with recessive := 0 }
  | .idle | .receiving => heardEnd kind r void s
  | .sending =>
    match s.line.tx with
    | none => heardEnd kind r void s
    | some f =>
      match r.fares kind f with
      | .kept => ownEnd f r false void s
      | .driveFault => ownEnd f r true void s
      | .lost =>
        let s1 := loseArbitration [] s
        if s1.line.state = .receiving then heardEnd kind r void s1 else s1

end Sys2Proof.Machine
end

