-- ==== Sys2Proof/Machine/CycleLoad.lean ====
section
/-! DEFINITION. The checks of START STATION on the configuration (R88) and of LOAD CYCLE on the staged records (R107 to R118). -/

namespace Sys2Proof.Machine

/-! ## The stored configuration, byte by byte (R185, R204) -/

/-- The configuration scalar at an offset from 0x010 (R185). -/
def Settings.scalar (c : Settings) : Nat → Byte
  | 0 => c.stationId | 1 => c.rate | 2 => c.lease | 3 => c.powerBudget | 4 => c.ventBudget | 5 => c.fillBudget
  | 6 => c.heaterCount | 7 => c.heaterRating | 8 => c.steamCount | 9 => c.steamRating | 10 => c.purgeTime
  | 11 => c.retryLimit | 12 => c.attemptLimit | 13 => c.attention | _ => 0

/-- Store a configuration scalar (R185). -/
def Settings.setScalar (c : Settings) (i : Nat) (v : Byte) : Settings :=
  match i with
  | 0 => { c with stationId := v } | 1 => { c with rate := v } | 2 => { c with lease := v }
  | 3 => { c with powerBudget := v } | 4 => { c with ventBudget := v } | 5 => { c with fillBudget := v }
  | 6 => { c with heaterCount := v } | 7 => { c with heaterRating := v } | 8 => { c with steamCount := v }
  | 9 => { c with steamRating := v } | 10 => { c with purgeTime := v } | 11 => { c with retryLimit := v }
  | 12 => { c with attemptLimit := v } | 13 => { c with attention := v } | _ => c

/-- A care class entry by number 1 to 6 (R107). -/
def Settings.careClass? (c : Settings) (n : Nat) : Option CareClass :=
  if h : 1 ≤ n ∧ n ≤ 6 then some (c.classes[n - 1]'(by omega)) else none

/-- A byte of a class entry (R204). -/
def CareClass.byte (k : CareClass) : Nat → Byte
  | 0 => k.maxTemp | 1 => k.steam | 2 => k.lenHi | _ => k.lenLo

/-- Store a byte of a class entry. -/
def CareClass.setByte (k : CareClass) (i : Nat) (v : Byte) : CareClass :=
  match i with
  | 0 => { k with maxTemp := v } | 1 => { k with steam := v } | 2 => { k with lenHi := v } | _ => { k with lenLo := v }

/-- The byte of the class table at an offset from 0x020. -/
def Settings.classByte (c : Settings) (i : Nat) : Byte :=
  match c.careClass? (i / 4 + 1) with
  | some k => k.byte (i % 4)
  | none => 0

/-- Store a byte of the class table. -/
def Settings.setClassByte (c : Settings) (i : Nat) (v : Byte) : Settings :=
  if h : i / 4 < 6 then { c with classes := c.classes.set (i / 4) ((c.classes[i / 4]'h).setByte (i % 4) v) h } else c

/-! ## Care classes (R107) -/

/-- The maximum cycle length in minutes. -/
def CareClass.minutes (k : CareClass) : Nat := wordOf k.lenHi k.lenLo

/-- An entry whose four bytes are zero is unused (R107). -/
def CareClass.isUnused (k : CareClass) : Bool := k.maxTemp == 0 && k.steam == 0 && k.lenHi == 0 && k.lenLo == 0

/-- The field ranges of an entry in use, each with the field's offset in the entry (R88, R107). -/
def CareClass.fieldChecks (k : CareClass) : List (Nat × Bool) :=
  [(0, decide (30 ≤ k.maxTemp.toNat) && decide (k.maxTemp.toNat ≤ 75)), (1, decide (k.steam.toNat ≤ 1)),
   (2, decide (1 ≤ k.minutes) && decide (k.minutes ≤ 600))]

/-- An entry in use is valid when every field is in its range (R107). -/
def CareClass.isValid (k : CareClass) : Bool := k.fieldChecks.all (fun x => x.2)

/-! ## START STATION's checks (R88) -/

/-- A stored byte lies in a range. -/
def inRange (lo hi : Nat) (b : Byte) : Bool := decide (lo ≤ b.toNat) && decide (b.toNat ≤ hi)

/-- The scalars' ranges in address order (R88). -/
def Settings.scalarChecks (c : Settings) : List (Nat × Bool) :=
  [(0x010, inRange 1 15 c.stationId), (0x011, inRange 0 2 c.rate), (0x012, inRange 2 60 c.lease),
   (0x013, inRange 1 250 c.powerBudget), (0x014, inRange 1 63 c.ventBudget), (0x015, inRange 1 4 c.fillBudget),
   (0x016, inRange 1 8 c.heaterCount), (0x017, inRange 1 10 c.heaterRating), (0x018, inRange 0 4 c.steamCount),
   (0x019, c.steamCount == 0 || inRange 1 10 c.steamRating), (0x01A, inRange 0 120 c.purgeTime),
   (0x01B, inRange 0 5 c.retryLimit), (0x01C, inRange 8 64 c.attemptLimit), (0x01D, inRange 0 1 c.attention)]

/-- The checks of the class entries in use, in address order (R88). -/
def Settings.classChecks (c : Settings) : List (Nat × Bool) :=
  (List.range 6).flatMap (fun i =>
    match c.careClass? (i + 1) with
    | some k => if k.isUnused then [] else k.fieldChecks.map (fun x => (0x020 + 4 * i + x.1, x.2))
    | none => [])

/-- The address of the first bad field; 0x020 when every entry is unused; none for a configuration that passes (R88). -/
def Settings.firstBad (c : Settings) : Option Nat :=
  match (c.scalarChecks ++ c.classChecks).find? (fun x => !x.2) with
  | some x => some x.1
  | none => if c.classes.toList.all CareClass.isUnused then some 0x020 else none

/-! ## LOAD CYCLE's checks (R109 to R118) -/

/-- A staged record as it was copied (R203). -/
structure RawPhase where
  kind : Nat
  stop : Nat
  onLimit : Nat
  temp : Nat
  hum : Nat
  power : Nat
  vent : Nat
  duration : Nat
  limit : Nat
  padClear : Bool
deriving DecidableEq, Repr

/-- Record slot i of the staging area (R203). -/
def Memory.rawPhase (m : Memory) (i : Nat) : RawPhase :=
  let b (j : Nat) : Byte := Memory.read m (0x100 + 16 * i + j)
  { kind := (b 0).toNat, stop := (b 1).toNat, onLimit := (b 2).toNat, temp := (b 3).toNat, hum := (b 4).toNat,
    power := (b 5).toNat, vent := (b 6).toNat, duration := wordOf (b 7) (b 8), limit := wordOf (b 9) (b 10),
    padClear := b 11 == 0 && b 12 == 0 && b 13 == 0 && b 14 == 0 && b 15 == 0 }

/-- The end conditions a kind allows (R109). -/
def endAllowed : PhaseKind → EndCond → Bool
  | .fill, .level => true
  | .preheat, .time | .preheat, .temp => true
  | .steam, .time | .steam, .humid => true
  | .settle, .time => true
  | .dry, .time | .dry, .humid | .dry, .temp => true
  | .air, .time | .air, .humid => true
  | .cool, .time | .cool, .temp => true
  | .fill, .time | .fill, .temp | .fill, .humid => false
  | .preheat, .humid | .preheat, .level => false
  | .steam, .temp | .steam, .level => false
  | .settle, .temp | .settle, .humid | .settle, .level => false
  | .dry, .level => false
  | .air, .temp | .air, .level => false
  | .cool, .humid | .cool, .level => false

/-- What a kind and an end condition say of a target (R110). -/
inductive TargetNeed where
  | required | optional | absent
deriving DecidableEq, Repr

/-- The target temperature column of R110. -/
def tempNeed : PhaseKind → EndCond → TargetNeed
  | .fill, _ => .absent
  | .preheat, _ => .required
  | .steam, _ => .optional
  | .settle, _ => .optional
  | .dry, _ => .required
  | .air, _ => .optional
  | .cool, e => if e = .temp then .required else .absent

/-- The target humidity column of R110. -/
def humNeed : PhaseKind → EndCond → TargetNeed
  | .fill, _ => .absent
  | .preheat, e => if e = .humid then .required else .absent
  | .steam, _ => .required
  | .settle, _ => .absent
  | .dry, e => if e = .humid then .required else .absent
  | .air, e => if e = .humid then .required else .absent
  | .cool, _ => .absent

/-- A target meets its need and, when it is not 0, its range (R110). -/
def targetOk (need : TargetNeed) (lo hi v : Nat) : Bool :=
  match need with
  | .required => decide (lo ≤ v) && decide (v ≤ hi)
  | .optional => v == 0 || (decide (lo ≤ v) && decide (v ≤ hi))
  | .absent => v == 0

/-- The power and vent columns of R109, each as (least, greatest). -/
def powerShape : PhaseKind → Nat × Nat
  | .fill => (0, 0) | .preheat => (1, 63) | .steam => (1, 63) | .settle => (0, 63) | .dry => (1, 63) | .air => (0, 63)
  | .cool => (0, 0)
def ventShape : PhaseKind → Nat × Nat
  | .fill => (0, 0) | .preheat => (0, 31) | .steam => (1, 31) | .settle => (0, 0) | .dry => (1, 31) | .air => (1, 31)
  | .cool => (1, 31)

/-- Power and vent units agree with the kind (R109). -/
def claimShapeOk (k : PhaseKind) (power vent : Nat) : Bool :=
  decide ((powerShape k).1 ≤ power) && decide (power ≤ (powerShape k).2) &&
    decide ((ventShape k).1 ≤ vent) && decide (vent ≤ (ventShape k).2)

/-- The usable rating of a kind (R113). -/
def usableRating (c : Settings) (k : PhaseKind) : Nat :=
  c.heaterCount.toNat * c.heaterRating.toNat +
    (if k = .steam then c.steamCount.toNat * c.steamRating.toNat else 0)

/-- The rating of the stage type a kind uses first (R113). -/
def firstRating (c : Settings) (k : PhaseKind) : Nat :=
  if k = .steam then c.steamRating.toNat else c.heaterRating.toNat

/-- The size checks of R113. -/
def claimSizeOk (c : Settings) (k : PhaseKind) (power vent : Nat) : Bool :=
  decide (power ≤ usableRating c k) && decide (power ≤ c.powerBudget.toNat) && decide (vent ≤ c.ventBudget.toNat) &&
    decide (k.fillFlag ≤ c.fillBudget.toNat) && (power == 0 || decide (firstRating c k ≤ power))

/-- The duration fits the end condition (R112). -/
def durationOk (e : EndCond) (d : Nat) : Bool := if e = .time then decide (1 ≤ d) && decide (d ≤ 7200) else d == 0

/-- The limit fits the end condition and the on-limit field is 0 or 1 (R112). -/
def limitOk (e : EndCond) (onLimit l : Nat) : Bool :=
  (if e = .time then l == 0 else decide (10 ≤ l) && decide (l ≤ 14400)) && decide (onLimit ≤ 1)

/-- The checks of one record in the order of R118; the first failure gives the reason. -/
def checkPhase (c : Settings) (k : CareClass) (r : RawPhase) : Except CycleReason Phase :=
  match PhaseKind.ofCode? r.kind with
  | none => .error .kind
  | some kind =>
    match EndCond.ofCode? r.stop with
    | none => .error .endCondition
    | some e =>
      if !endAllowed kind e then .error .endCondition
      else if !targetOk (tempNeed kind e) 20 75 r.temp || !targetOk (humNeed kind e) 5 95 r.hum then .error .targetRange
      else if r.temp != 0 && decide (k.maxTemp.toNat < r.temp) then .error .classTemp
      else if kind == .steam && (k.steam == 0 || c.steamCount == 0) then .error .classSteam
      else if !claimShapeOk kind r.power r.vent then .error .claimShape
      else if !claimSizeOk c kind r.power r.vent then .error .claimSize
      else if !durationOk e r.duration then .error .duration
      else if !limitOk e r.onLimit r.limit then .error .limit
      else if !r.padClear then .error .pad
      else .ok ⟨kind, e, r.onLimit == 1, r.temp, r.hum, r.power, r.vent, r.duration, r.limit⟩

/-- The records in index order, each followed by the running length sum (R114, R117). -/
def checkPhases (c : Settings) (k : CareClass) : Nat → Nat → List RawPhase → Except (Nat × CycleReason) (List Phase)
  | _, _, [] => .ok []
  | i, sum, r :: rest =>
    match checkPhase c k r with
    | .error reason => .error (i, reason)
    | .ok p =>
      if k.minutes * 60 < sum + p.time then .error (i, .cycleLength)
      else
        match checkPhases c k (i + 1) (sum + p.time) rest with
        | .error e => .error e
        | .ok ps => .ok (p :: ps)

/-- A whole load (R116 to R118): count, class, then the records. -/
def checkCycle (c : Settings) (m : Memory) (count cls : Nat) : Except (Nat × CycleReason) (CareClass × List Phase) :=
  if count < 1 ∨ 16 < count then .error (255, .count)
  else
    match c.careClass? cls with
    | none => .error (255, .cls)
    | some k =>
      if k.isUnused || !k.isValid then .error (255, .cls)
      else
        match checkPhases c k 0 0 ((List.range count).map (Memory.rawPhase m)) with
        | .error e => .error e
        | .ok ps => .ok (k, ps)

end Sys2Proof.Machine
end

