-- ==== Sys2Proof/Machine/Views.lean ====
section
/-! DEFINITION. What the exchange area reads as, byte by byte (R182, R193, R203, R204, R205). -/

namespace Sys2Proof.Machine

/-- The two bytes of a 16-bit number, most significant first (R199). -/
def twoBytes (n : Nat) : List Byte := [hiByte n, loByte n]

/-- An air temperature as stored: a two's-complement count of half degrees, 0 when invalid (R202). -/
def airBytes (t : Option Int) : List Byte :=
  match t with
  | some x => twoBytes (BitVec.ofInt 16 x).toNat
  | none => [0, 0]

/-- A humidity as stored, 0 when invalid (R154). -/
def humByte (h : Option Nat) : Byte :=
  match h with
  | some x => byteOf x
  | none => 0

/-- The validity byte: bit 0 air temperature, bit 1 humidity (R202). -/
def validityByte (air : Option Int) (hum : Option Nat) : Byte :=
  byteOf ((if air.isSome then 1 else 0) + (if hum.isSome then 2 else 0))

/-- The amounts a record shows: absent ones read zero (R82). -/
def Holding.amounts : Holding → Nat × Nat × Nat
  | .none => (0, 0, 0)
  | .admitted a => (a.power, a.vent, a.fill)
  | .waiting a _ => (a.power, a.vent, a.fill)

/-- The phase kind code a record shows, 0 when absent (R190). -/
def Holding.kindCode : Holding → Nat
  | .none => 0
  | .admitted a => a.kind.code
  | .waiting a _ => a.kind.code

/-- Seconds of the purge time left; the free constant decides how a started second shows (log 17). -/
def purgeSeconds (t : Timer) : Nat :=
  (t.left + (if Config.purgeShownUp then Config.ticksPerSecond - 1 else 0)) / Config.ticksPerSecond

/-- The identity region (R184, R204). -/
def identityBytes (s : State) : List Byte := [0x04, 0x18, 0x01, flagByte s.locked]

/-- The command block (R186, R204). -/
def commandBytes (s : State) : List Byte :=
  [s.port.code, byteOf s.port.result.code, s.port.result.detail.1, s.port.result.detail.2, s.port.param1, s.port.param2]

/-- The status block from 0x090 (R193, R204). -/
def statusBytes (s : State) : List Byte :=
  [byteOf s.control.station.code, byteOf (causeCode s.control.isolation), byteOf s.control.rejoins,
   flagByte s.table.windowOpen, byteOf s.own.code, byteOf s.own.amounts.1, byteOf s.own.amounts.2.1,
   byteOf s.own.amounts.2.2, byteOf s.ownPosition, byteOf s.engine.state.code, byteOf s.engine.state.subCode,
   byteOf s.engine.holds.code, byteOf (purgeSeconds s.engine.purge), byteOf s.engine.index,
   (if s.engine.state = .idle then 0 else byteOf s.engine.current.kind.code), byteOf s.engine.cls,
   flagByte s.engine.stale, 0] ++
  twoBytes (s.engine.phaseTimer / Config.ticksPerSecond) ++ twoBytes (s.engine.limitTimer / Config.ticksPerSecond) ++
  airBytes s.meas.sample.air ++
  [humByte s.meas.sample.hum, validityByte s.meas.sample.air s.meas.sample.hum, byteOf s.meas.sample.reservoir.code,
   flagByte s.meas.sample.tankFull, flagByte s.meas.doorOpen, byteOf s.load.heaters, byteOf s.load.steam,
   byteOf s.load.vent, flagByte s.load.fan, flagByte s.load.valve]

/-- The Fault Record from 0x0C0, all zero when empty (R174, R204). -/
def faultBytes (s : State) : List Byte :=
  match s.fault with
  | none => []
  | some r =>
    [byteOf r.code.code, byteOf r.index, byteOf r.kind.code, byteOf r.sub.code, byteOf r.holds.code] ++ airBytes r.air ++
    [humByte r.hum, validityByte r.air r.hum, byteOf r.later,
     (match r.last with
      | some c => byteOf c.code
      | none => 0)]

/-- The sixteen counters from 0x0D0 (R194). -/
def counterBytes (s : State) : List Byte := s.port.counters.toList.flatMap (fun c => twoBytes c.toNat)

/-- The ring control region from 0x0F0 (R204). -/
def ringControlBytes (s : State) : List Byte :=
  [byteOf s.port.ring.nextIn.toNat, byteOf s.port.ring.nextOut.toNat] ++ twoBytes s.port.ring.lost.toNat ++
    twoBytes s.port.ring.firstLost.toNat

/-- A phase record in the layout of R203. -/
def Phase.bytes (p : Phase) : List Byte :=
  [byteOf p.kind.code, byteOf p.stop.code, flagByte p.onLimitFault, byteOf p.temp, byteOf p.hum, byteOf p.power,
   byteOf p.vent] ++ twoBytes p.duration ++ twoBytes p.limit ++ [0, 0, 0, 0, 0]

/-- One record of the peer view (R190, R204). -/
def peerRecordBytes (r : Option PeerRecord) : List Byte :=
  match r with
  | none => [0, 0, 0, 0, 0, 0, 0, 0]
  | some x =>
    [byteOf (128 + x.holding.code), byteOf x.holding.amounts.1, byteOf x.holding.amounts.2.1,
     byteOf (x.holding.amounts.2.2 * 128 + x.holding.kindCode), x.seq] ++ twoBytes x.leaseTenths ++ [0]

/-- The peer view from 0x300: the header of 24 bytes, then fifteen records of eight (R190, R204). -/
def peerViewBytes (s : State) : List Byte :=
  let v := s.port.view
  ([v.number, byteOf v.station.code, byteOf v.queue.length] ++
    (List.range 15).map (fun i => byteOf (v.queue.getD i 0)) ++ [0, 0, 0, 0, 0, 0]) ++
  v.recs.toList.flatMap peerRecordBytes

/-- An event ring entry (R205). -/
def Event.bytes (e : Event) : List Byte :=
  twoBytes e.seq.toNat ++ [e.kind, e.subject, e.d0, e.d1, e.d2, e.d3]

/-- The bytes of a coherent region as they stand (R183). -/
def Coherent.bytes (s : State) : Coherent → List Byte
  | .status => statusBytes s
  | .faultRecord => faultBytes s
  | .counters => counterBytes s
  | .ringControl => ringControlBytes s
  | .peerView => peerViewBytes s

/-- The coherent region an address lies in, with the region's base (R182, R183). -/
def coherentOf (a : Nat) : Option (Coherent × Nat) :=
  if 0x090 ≤ a ∧ a ≤ 0x0BF then some (.status, 0x090)
  else if 0x0C0 ≤ a ∧ a ≤ 0x0CF then some (.faultRecord, 0x0C0)
  else if 0x0D0 ≤ a ∧ a ≤ 0x0EF then some (.counters, 0x0D0)
  else if 0x0F0 ≤ a ∧ a ≤ 0x0F7 then some (.ringControl, 0x0F0)
  else if 0x300 ≤ a ∧ a ≤ 0x38F then some (.peerView, 0x300)
  else none

/-- A byte of a region's layout; what the layout leaves unused reads zero (R182). -/
def byteAt (bs : List Byte) (i : Nat) : Byte := bs.getD i 0

/-- The exchange area as it stands at an address outside the coherent regions (R182). -/
def plainByte (s : State) (a : Nat) : Byte :=
  if a ≤ 0x00F then byteAt (identityBytes s) a
  else if 0x010 ≤ a ∧ a ≤ 0x01D then s.cfg.scalar (a - 0x010)
  else if 0x020 ≤ a ∧ a ≤ 0x037 then s.cfg.classByte (a - 0x020)
  else if 0x080 ≤ a ∧ a ≤ 0x08F then byteAt (commandBytes s) (a - 0x080)
  else if 0x100 ≤ a ∧ a ≤ 0x1FF then Memory.read s.port.staging a
  else if 0x200 ≤ a ∧ a ≤ 0x2FF then
    match s.engine.phases[(a - 0x200) / 16]? with
    | some p => byteAt p.bytes ((a - 0x200) % 16)
    | none => 0
  else if 0x400 ≤ a ∧ a ≤ 0x4FF then
    match s.port.ring.entries[(a - 0x400) / 8]? with
    | some e => byteAt e.bytes ((a - 0x400) % 8)
    | none => 0
  else 0

/-- The exchange area as it stands at an address (R182). -/
def State.exchange (s : State) (a : Nat) : Byte :=
  match coherentOf a with
  | some (r, base) => byteAt (r.bytes s) (a - base)
  | none => plainByte s a

end Sys2Proof.Machine
end

