-- ==== Sys2Proof/Machine/Port.lean ====
section
/-! DEFINITION. The Exchange Port (chapter 10): SPI transactions byte by byte, the stores of each region, the read latches, and
the port's own commands. -/

namespace Sys2Proof.Machine

/-! ## Latches (R183) -/

def Latches.none : Latches := ⟨Option.none, Option.none, Option.none, Option.none, Option.none⟩

/-- The latch of a region. -/
def Latches.get (l : Latches) : Coherent → Option (List Byte)
  | .status => l.status
  | .faultRecord => l.faultRecord
  | .counters => l.counters
  | .ringControl => l.ringControl
  | .peerView => l.peerView

/-- Latch a region. -/
def Latches.set (l : Latches) (r : Coherent) (bs : List Byte) : Latches :=
  match r with
  | .status => { l with status := some bs }
  | .faultRecord => { l with faultRecord := some bs }
  | .counters => { l with counters := some bs }
  | .ringControl => { l with ringControl := some bs }
  | .peerView => { l with peerView := some bs }

/-! ## Transactions (R181) -/

/-- The mode of a header's command byte: READ 0x03, WRITE 0x02, or no effect (R181). -/
def txnMode (cmd : Byte) : TxnMode := if cmd = 0x03 then .read else if cmd = 0x02 then .write else .dead

/-- The transaction a header opens (R181). -/
def openTxn (cmd hi lo : Byte) : OpenTxn :=
  { mode := txnMode cmd, addr := BitVec.ofNat 11 (headerAddr hi lo), lostConfig := false, lostCode := false,
    storedCode := false, latches := Latches.none }

/-- The counts made when a transaction ends (R87, R187). -/
def endCounts (lostConfig lostCode : Bool) (s : State) : State :=
  let s1 := if lostConfig then bump .configRefused s else s
  if lostCode then bump .commandsDiscarded s1 else s1

/-- NCS is high: no transaction, its latches gone, SDO high impedance (R181, R183). -/
def Port.released (p : Port) : Port := { p with txn := .closed, sdo := .highZ }

/-- The rising edge of NCS: the end of the transaction with its counts (R181). -/
def endTransaction (s : State) : State :=
  let s1 := s.setPort s.port.released
  match s.port.txn with
  | .opened t => endCounts t.lostConfig t.lostCode s1
  | .closed | .ignored | .header _ => s1

/-! ## Stores (R182) -/

/-- Replace the open transaction. -/
def setTxn (t : OpenTxn) (s : State) : State := s.setPort { s.port with txn := .opened t }

/-- A store into the configuration, with the stale mark of a loaded cycle (R121). -/
def storeConfig (c : Settings) (s : State) : State :=
  (s.setCfg c).setEngine { s.engine with stale := s.engine.stale || !s.engine.phases.isEmpty }

/-- A byte to the configuration scalars or the class table: stored while the lock is released, otherwise lost (R87). -/
def writeConfig (a : Nat) (v : Byte) (t : OpenTxn) (s : State) : State :=
  if s.locked then setTxn { t with lostConfig := true } s
  else
    storeConfig
      (if a ≤ 0x01D then s.cfg.setScalar (a - 0x010) v else s.cfg.setClassByte (a - 0x020) v) s

/-- A byte to NEXT_OUT: stored when it marks some or all unread entries as read and no more (R197). -/
def writeNextOut (v : Byte) (s : State) : State :=
  let r := s.port.ring
  let out : BitVec 5 := BitVec.ofNat 5 v.toNat
  if v.toNat ≤ 31 ∧ (out - r.nextOut).toNat ≤ r.unread.toNat then s.setPort { s.port with ring := { r with nextOut := out } }
  else s

/-- A byte to the command code: stored when the code reads 0, otherwise lost (R187). A non-zero code is taken when its
transaction ends (R188). -/
def writeCode (v : Byte) (t : OpenTxn) (s : State) : State :=
  if s.port.code = 0 then setTxn { t with storedCode := v != 0 } (s.setPort { s.port with code := v })
  else setTxn { t with lostCode := true } s

/-- A byte to a region with no row of its own: the command block and the staging area store, everything else discards
(R182, R186). -/
def writeRegister (a : Nat) (v : Byte) (t : OpenTxn) (s : State) : State :=
  if a = 0x080 then writeCode v t s
  else if a = 0x084 then s.setPort { s.port with param1 := v }
  else if a = 0x085 then s.setPort { s.port with param2 := v }
  else if 0x100 ≤ a ∧ a ≤ 0x1FF then s.setPort { s.port with staging := Memory.write s.port.staging a v }
  else s

/-- A written data byte is tested against the region it is addressed to (R182). -/
def writeByte (a : Nat) (v : Byte) (t : OpenTxn) (s : State) : State :=
  if isConfigAddr a then writeConfig a v t s
  else if a = 0x0F1 then writeNextOut v s
  else writeRegister a v t s

/-- A data byte shifted out (R182, R183): from the region's latch, made at the region's first byte, or live. -/
def readByte (t : OpenTxn) (s : State) : OpenTxn × Byte :=
  let a := t.addr.toNat
  match coherentOf a with
  | none => (t, plainByte s a)
  | some (r, base) =>
    match t.latches.get r with
    | some bs => (t, byteAt bs (a - base))
    | none => ({ t with latches := t.latches.set r (r.bytes s) }, byteAt (r.bytes s) (a - base))

/-- The address after a data byte: one more, from 0x7FF to 0x000 (R181). -/
def advanceAddr (s : State) : State :=
  match s.port.txn with
  | .opened t => setTxn { t with addr := t.addr + 1 } s
  | .closed | .ignored | .header _ => s

/-- NCS falls: a new transaction in its header, SDO driven low (R181). -/
def beginHeader (s : State) : State := s.setPort { s.port with txn := .header [], sdo := .low }

/-- The transaction after a whole header byte (R181): the third one completes the header. -/
def afterHeaderByte : List Byte → Byte → Txn
  | [], c => .header [c]
  | [c], hi => .header [c, hi]
  | c :: hi :: _, lo => .opened (openTxn c hi lo)

/-- One byte time of a header (R181). A byte of fewer than eight sampled bits completes nothing. -/
def headerByte (b : SpiByte) (bytes : List Byte) (s : State) : State :=
  s.setPort { s.port with txn := if b.whole then afterHeaderByte bytes b.value else .header bytes, sdo := .low }

/-- One data byte of an open transaction (R181). A byte of fewer than eight sampled bits is not written. -/
def dataByte (b : SpiByte) (t : OpenTxn) (s : State) : State :=
  match t.mode with
  | .write =>
    let s1 := s.setPort { s.port with sdo := .low }
    if b.whole then advanceAddr (writeByte t.addr.toNat b.value t s1) else s1
  | .read =>
    let r := readByte t s
    advanceAddr ((setTxn r.1 s).setPort { (setTxn r.1 s).port with sdo := .byte r.2 })
  | .dead => s.setPort { s.port with sdo := .low }

/-! ## Answers (R188) -/

/-- The code stored (R187). -/
def storeCode (code : Byte) (s : State) : State := s.setPort { s.port with code := code }

/-- The answer waits for the completion (R188). -/
def answered (r : Result) (s : State) : State :=
  s.setPort { s.port with taken := some ⟨r, Config.completionTicks⟩ }

/-- The completion (R188): result and detail written, then the code set back to 0. -/
def complete (s : State) : State :=
  match s.port.taken with
  | some t => s.setPort { s.port with result := t.result, code := 0, taken := none }
  | none => s

/-! ## The port's own commands -/

/-- The lease time left in tenths of a second, rounded down (R190). -/
def leaseTenths (t : Timer) : Nat := t.left / (Config.ticksPerSecond / 10)

/-- SNAPSHOT PEERS (R190): the table copied, then the snapshot number advanced. -/
def snapshot (s : State) : State :=
  let v : PeerView :=
    { number := s.port.view.number + 1, station := s.control.station, queue := s.table.queue,
      recs := s.table.recs.map (fun r => r.map (fun x => ⟨x.seq, x.holding, leaseTenths x.lease⟩)) }
  s.setPort { s.port with view := v }

/-- CLEAR COUNTERS (R191): the sixteen counters, the lost count and the first-lost sequence. -/
def clearCounts (s : State) : State :=
  s.setPort { s.port with
    counters := Vector.replicate 16 0, ring := { s.port.ring with lost := 0, firstLost := 0 } }

end Sys2Proof.Machine
end

