-- ==== Sys2Proof/Machine/HostCommands.lean ====
section
/-! DEFINITION. The host's commands: their decisions and effects at the take (R186 to R192), one meaning per row, and the byte
times of the port, whose end of a transaction takes a command. -/

namespace Sys2Proof.Machine

/-! ## Station commands (chapter 5) -/

/-- START STATION's transition (R89): interface, list and table take up the configuration, the own record is set up and its
timers started (R19, R39), then the entry into GATHERING (R90). -/
def startGathering (s : State) : State :=
  let s1 := s.setControl { s.control with awaited := some .startStation, run := 0, rejoins := 0 }
  let s2 := s1.setLine
    { s1.line.detach with state := .waitIdle, rate := s1.cfg.rate, id := s1.cfg.stationId }
  let t := s2.table.put s2.ownId (some { seq := s2.out.seq - 1, lease := .stopped, holding := .none })
  enterGathering .start 0 (s2.setTable
    { t with renewal := .running s2.cfg.renewalTicks, selfLease := .running s2.cfg.selfLeaseTicks })

/-- START STATION (R88). -/
def startStation (s : State) : State × Result :=
  if s.control.station = .offline then
    match s.cfg.firstBad with
    | some a => (s, .badConfig a)
    | none => (startGathering s, .ok)
  else (s, .wrongState)

/-- LEAVE STATION (R103). -/
def leaveStation (s : State) : State × Result :=
  if s.control.station = .member then
    if s.own != .none || s.intentBusy || s.engine.state.underWay then (s, .busy)
    else
      let s1 := s.setControl { s.control with
        station := .leaving, memberTimer := .stopped, awaited := some .leaveStation }
      (post .leave .leave (stationEvent .member .leaveStation 0 s1), .ok)
  else (s, .notMember)

/-- REJOIN (R96). -/
def rejoin (s : State) : State × Result :=
  match s.control.station with
  | .member => (resync .rejoin (s.setControl { s.control with awaited := some .rejoin }), .ok)
  | .isolated =>
    (enterGathering .rejoin 0 (s.setControl { s.control with
      awaited := some .rejoin, rejoinTimer := .stopped, isolation := none, rejoins := 0, run := 0 }), .ok)
  | .offline | .gathering | .leaving => (s, .wrongState)

/-! ## Cycle commands (chapters 6, 7 and 9) -/

/-- The cycle table an accepted load makes, the engine LOADED at phase 0 (R119). -/
def Engine.loadedWith (e : Engine) (cls : Nat) (k : CareClass) (ps : List Phase) : Engine :=
  { e with phases := ps, cls := cls, maxTemp := k.maxTemp.toNat, stale := false, state := .loaded, index := 0,
           phaseTimer := 0, limitTimer := 0 }

/-- LOAD CYCLE (R116 to R120). -/
def loadCycle (s : State) : State × Result :=
  match s.engine.state with
  | .idle | .loaded | .complete =>
    match checkCycle s.cfg s.port.staging s.port.param1.toNat s.port.param2.toNat with
    | .error e => (s, .badCycle e.1 e.2)
    | .ok r => (s.setEngine (s.engine.loadedWith s.port.param2.toNat r.1 r.2), .ok)
  | .running _ | .held => (s, .busy)
  | .faulted => (s, .faultPending)

/-- START CYCLE (R127, R128), which clears the low-reported flag (R156). -/
def startCycle (s : State) : State × Result :=
  match s.engine.state with
  | .faulted => (s, .faultPending)
  | .running _ | .held => (s, .busy)
  | .idle => (s, .noCycle)
  | .loaded | .complete =>
    if s.engine.stale then (s, .noCycle)
    else if !s.isMember then (s, .notMember)
    else (enterFresh 0 none (s.setMeas { s.meas with lowReported := false }), .ok)

/-- HOLD (R140). -/
def hold (s : State) : State × Result :=
  match s.engine.state with
  | .running b => (enterHeld .host (some b) none s, .ok)
  | .held => (addReason .host s, .ok)
  | .faulted => (s, .faultPending)
  | .idle | .loaded | .complete => (s, .wrongState)

/-- RESUME (R148). -/
def resume (s : State) : State × Result :=
  match s.engine.state with
  | .held => if s.engine.holds.host then (removeReason .host s, .ok) else (s, .wrongState)
  | .faulted => (s, .faultPending)
  | .idle | .loaded | .running _ | .complete => (s, .wrongState)

/-- The engine of an aborted cycle (R149): LOADED at phase 0, timers 0, no reason held. -/
def Engine.aborted (e : Engine) : Engine :=
  { e with state := .loaded, index := 0, phaseTimer := 0, limitTimer := 0, holds := HoldSet.empty, purge := .stopped }

/-- ABORT CYCLE (R149). -/
def abortCycle (s : State) : State × Result :=
  match s.engine.state with
  | .running _ | .held => (giveUpShare (s.setEngine s.engine.aborted), .ok)
  | .faulted => (s, .faultPending)
  | .idle | .loaded | .complete => (s, .wrongState)

/-- The clear condition of a fault code holds (R179). -/
def clearCondition (e : Engine) (m : Sample) : FaultCode → Bool
  | .overTemp =>
    match m.air with
    | some t => decide (2 * (e.maxTemp : Int) < t)
    | none => true
  | .sensor => !m.air.isSome || !m.hum.isSome
  | .noWater => m.reservoir == .empty
  | .phaseLimit => false
  | .claimRefused => false

/-- The code whose clear condition refuses CLEAR FAULT: the first code's is tested first, then the last later code's (R179). -/
def blockingCode (e : Engine) (m : Sample) (r : FaultRecord) : Option FaultCode :=
  if clearCondition e m r.code then some r.code
  else
    match r.last with
    | some c => if clearCondition e m c then some c else none
    | none => none

/-- The engine of a cleared fault (R179). -/
def Engine.cleared (e : Engine) : Engine := { e with state := .loaded, index := 0, phaseTimer := 0, limitTimer := 0 }

/-- CLEAR FAULT (R179). -/
def clearFault (s : State) : State × Result :=
  match s.engine.state with
  | .faulted =>
    match s.fault.bind (blockingCode s.engine s.meas.sample) with
    | some c => (s, .conditionPresent c)
    | none => ((s.setEngine s.engine.cleared).setFault none, .ok)
  | .idle | .loaded | .running _ | .held | .complete => (s, .wrongState)

/-! ## The take (R187 to R191) -/

/-- The clearing and the counts of the transaction that wrote CLEAR COUNTERS, in the order a free value decides (R191,
log 6). -/
def clearAtTake (s : State) : State :=
  let s1 := s.setFree (s.free + 1)
  if Config.freeBit s.free then endTransaction (clearCounts s1) else clearCounts (endTransaction s1)

/-- The decision and the effects of a code at its take, but for CLEAR COUNTERS and RESTART (R189). -/
def decideCode (code : Byte) : State → State × Result :=
  if code = 0x01 then startStation
  else if code = 0x02 then leaveStation
  else if code = 0x03 then rejoin
  else if code = 0x10 then loadCycle
  else if code = 0x11 then startCycle
  else if code = 0x12 then hold
  else if code = 0x13 then resume
  else if code = 0x14 then abortCycle
  else if code = 0x15 then clearFault
  else if code = 0x20 then fun t => (snapshot t, .ok)
  else fun t => (t, .badCommand code)

/-- The input pins as they stand while NCS is high: the sensor inputs last brought and the door's level. -/
def State.pinsNow (s : State) : Inputs := ⟨s.meas.inputs, s.meas.doorPinClosed, false⟩

/-- The take of the code a transaction stored, as the transaction ends (R188). RESTART resets the part with the pins as they
stand (R192, log 14). -/
def takeStored (s : State) : State :=
  if s.port.code = 0x3F then resetPart s.pinsNow s
  else if s.port.code = 0x21 then answered .ok (clearAtTake s)
  else
    let r := decideCode s.port.code (endTransaction s)
    answered r.2 r.1

/-- The rising edge of NCS: the transaction ends, and a code it stored is taken (R181, R188). -/
def closeTransaction (s : State) : State :=
  match s.port.txn with
  | .opened t => if t.storedCode then takeStored s else endTransaction s
  | .closed | .ignored | .header _ => endTransaction s

/-- A command row's code byte finds another command in the code field (R187). -/
def codeRefused (code : Byte) (s : State) : Bool :=
  s.port.taken.isSome || (s.port.code != 0 && s.port.code != code)

/-- The transaction of a discarded code byte ends and is counted (R187); an earlier code it stored itself is taken (R188). -/
def discardCommand (s : State) : State :=
  match s.port.txn with
  | .opened t => closeTransaction (setTxn { t with lostCode := true } s)
  | .closed | .ignored | .header _ => bump .commandsDiscarded (endTransaction s)

/-- A host command (R187, R188, log 14): the transaction that stored its code ends, and the command is taken; its decision and
effects are made on the state found there, and the answer waits for the completion. -/
def hostCommand (code : Byte) (act : State → State × Result) (s : State) : State :=
  if codeRefused code s then discardCommand s
  else
    let r := act (endTransaction (storeCode code s))
    answered r.2 r.1

/-! ## Byte times of the port -/

/-- One byte time within a transaction (R181, R192): a header byte or a data byte. While NCS is high, and in a transaction
ignored after a reset, a byte does nothing. -/
def innerByte (b : SpiByte) (s : State) : State :=
  match s.port.txn with
  | .header bytes => headerByte b bytes s
  | .opened t => dataByte b t s
  | .closed | .ignored => s

/-- One byte time of the port (R181): NCS may fall before it, which ends a transaction still open, and rise after it. -/
def portByte (b : SpiByte) (s : State) : State :=
  let s1 := innerByte b (if b.starts then beginHeader (closeTransaction s) else s)
  if b.ends then closeTransaction s1 else s1

/-! ## The meanings -/

/-- START_STATION (R88, R89), code 0x01. -/
def execStartStation (s : State) : Host.Outcome State Fault Refusal := finish (hostCommand 0x01 startStation s)

/-- LEAVE_STATION (R103), code 0x02. -/
def execLeaveStation (s : State) : Host.Outcome State Fault Refusal := finish (hostCommand 0x02 leaveStation s)

/-- REJOIN (R96), code 0x03. -/
def execRejoin (s : State) : Host.Outcome State Fault Refusal := finish (hostCommand 0x03 rejoin s)

/-- LOAD_CYCLE (R116 to R120), code 0x10. -/
def execLoadCycle (s : State) : Host.Outcome State Fault Refusal := finish (hostCommand 0x10 loadCycle s)

/-- START_CYCLE (R127, R128), code 0x11. -/
def execStartCycle (s : State) : Host.Outcome State Fault Refusal := finish (hostCommand 0x11 startCycle s)

/-- HOLD (R140), code 0x12. -/
def execHold (s : State) : Host.Outcome State Fault Refusal := finish (hostCommand 0x12 hold s)

/-- RESUME (R148), code 0x13. -/
def execResume (s : State) : Host.Outcome State Fault Refusal := finish (hostCommand 0x13 resume s)

/-- ABORT_CYCLE (R149), code 0x14. -/
def execAbortCycle (s : State) : Host.Outcome State Fault Refusal := finish (hostCommand 0x14 abortCycle s)

/-- CLEAR_FAULT (R179), code 0x15. -/
def execClearFault (s : State) : Host.Outcome State Fault Refusal := finish (hostCommand 0x15 clearFault s)

/-- SNAPSHOT_PEERS (R190), code 0x20. -/
def execSnapshotPeers (s : State) : Host.Outcome State Fault Refusal :=
  finish (hostCommand 0x20 (fun t => (snapshot t, .ok)) s)

/-- CLEAR_COUNTERS (R191), code 0x21. -/
def execClearCounters (s : State) : Host.Outcome State Fault Refusal :=
  finish (if codeRefused 0x21 s then discardCommand s else answered .ok (clearAtTake (storeCode 0x21 s)))

/-- RESTART (R192), code 0x3F: the whole part is reset and no completion follows. -/
def execRestart (inp : Inputs) (s : State) : Host.Outcome State Fault Refusal :=
  finish (if codeRefused 0x3F s then discardCommand s else resetPart inp s)

/-- BAD_COMMAND (R189): the answer carries the code. A written 0 takes nothing (R187). -/
def execBadCommand (code : Byte) (s : State) : Host.Outcome State Fault Refusal :=
  finish (if code = 0 ∧ ¬ codeRefused code s then endTransaction s
    else hostCommand code (fun t => (t, .badCommand code)) s)

/-- COMPLETION (R188). -/
def execCompletion (s : State) : Host.Outcome State Fault Refusal := finish (complete s)

end Sys2Proof.Machine
end

