-- ==== Sys2Proof/Machine/LineEvents.lean ====
section
/-! DEFINITION. The line's events and the frames that end on it (chapters 1 to 4): one meaning per row. -/

namespace Sys2Proof.Machine

/-- Five recessive bit times, or a further bit boundary of an idle line (R4, R6, R30, R61, log 13). Inside a frame and while
DETACHED there is no idle. -/
def idleReached (deferred : Bool) (s : State) : State :=
  match s.line.state with
  | .waitIdle | .idle => atIdle deferred s
  | .detached | .receiving | .sending => s

/-- IDLE (R4). -/
def execIdle (deferred : Bool) (s : State) : Host.Outcome State Fault Refusal := finish (idleReached deferred s)

/-- A start bit of a peer could turn out false: an edge on an idle line, or the edge the station deferred to, of whose frame
no bit has been read (R5, log 28). -/
def Line.mayBeFalseStart (l : Line) : Bool := l.state == .idle || (l.state == .receiving && l.rx.isEmpty)

/-- A start bit read recessive at its sample point (R5). -/
def falseStarted (s : State) : State :=
  if s.line.mayBeFalseStart then
    bump .receptionErrors (s.setLine { s.line with state := .waitIdle, recessive := 0, phase := 0 })
  else s

/-- FALSE_START (R5). -/
def execFalseStart (s : State) : Host.Outcome State Fault Refusal := finish (falseStarted s)

/-- A 1 sent and a 0 read at a bit from the first kind bit to the last check bit (R9). Where the station sends no frame, or
sent a 0 there, nothing was lost. -/
def arbitrationLostAt (bit : Nat) (s : State) : State :=
  match s.line.state with
  | .sending =>
    match s.line.tx with
    | some f =>
      if f.dataBits[bit]? = some true then loseArbitration (f.dataBits.take bit ++ [false]) s else s
    | none => s
  | .detached | .waitIdle | .idle | .receiving => s

/-- ARBITRATION_LOST (R9). -/
def execArbitrationLost (bit : Nat) (s : State) : Host.Outcome State Fault Refusal := finish (arbitrationLostAt bit s)

/-- A frame abandoned by its sender (R20): discarded, counted, and the five recessive bit times are a completed idle. A frame
whose start bit was heard from IDLE counts as one being received. -/
def frameAbandoned (deferred : Bool) (s : State) : State :=
  match s.line.state with
  | .idle | .receiving => atIdle deferred (bump .receptionErrors s)
  | .detached | .waitIdle | .sending => s

/-- ABANDONED_FRAME (R20). -/
def execAbandonedFrame (deferred : Bool) (s : State) : Host.Outcome State Fault Refusal :=
  finish (frameAbandoned deferred s)

/-- EXPIRE (R51 to R53): an applied frame of kind 1. -/
def execExpire (r : Reading) (s : State) : Host.Outcome State Fault Refusal :=
  finish (frameEnd FrameKind.expire.code r false s)

/-- LEAVE (R54): an applied frame of kind 2. -/
def execLeave (r : Reading) (s : State) : Host.Outcome State Fault Refusal :=
  finish (frameEnd FrameKind.leave.code r false s)

/-- RELEASE (R73): an applied frame of kind 3. -/
def execRelease (r : Reading) (s : State) : Host.Outcome State Fault Refusal :=
  finish (frameEnd FrameKind.release.code r false s)

/-- CLAIM (R67 to R72): an applied frame of kind 4. -/
def execClaim (r : Reading) (s : State) : Host.Outcome State Fault Refusal :=
  finish (frameEnd FrameKind.claim.code r false s)

/-- ROLLCALL (R55, R56): an applied frame of kind 5. -/
def execRollcall (r : Reading) (s : State) : Host.Outcome State Fault Refusal :=
  finish (frameEnd FrameKind.rollcall.code r false s)

/-- STANDING (R57 to R60): an applied frame of kind 6. -/
def execStanding (r : Reading) (s : State) : Host.Outcome State Fault Refusal :=
  finish (frameEnd FrameKind.standing.code r false s)

/-- UNDEFINED_KIND_FRAME (R17): an applied frame of kind 0 or 7 to 15. -/
def execUndefinedKindFrame (kind : BitVec 4) (r : Reading) (s : State) : Host.Outcome State Fault Refusal :=
  finish (frameEnd kind r false s)

/-- VOID_FRAME (R14): a frame whose second objection bit reads dominant. -/
def execVoidFrame (kind : BitVec 4) (r : Reading) (s : State) : Host.Outcome State Fault Refusal :=
  finish (frameEnd kind r true s)

end Sys2Proof.Machine
end

