-- ==== Sys2Proof/Machine/PortAccess.lean ====
section
/-! DEFINITION. The accesses of the exchange port (R181 to R183, R187, R197): one meaning per row. Which region a byte concerns
follows from its address, as R182 says. -/

namespace Sys2Proof.Machine

/-- CONFIG_WRITE (R87, R121, R185): a written byte to the configuration scalars or the class table. -/
def execConfigWrite (b : SpiByte) (s : State) : Host.Outcome State Fault Refusal := finish (portByte b s)

/-- NEXT_OUT_WRITE (R197): a written byte to NEXT_OUT. -/
def execNextOutWrite (b : SpiByte) (s : State) : Host.Outcome State Fault Refusal := finish (portByte b s)

/-- REGISTER_WRITE (R182, R186, R187): a written byte to a region with no row of its own. -/
def execRegisterWrite (b : SpiByte) (s : State) : Host.Outcome State Fault Refusal := finish (portByte b s)

/-- READ_LATCH (R183): a byte shifted out by a READ, with the latch of its region at the region's first byte. -/
def execReadLatch (b : SpiByte) (s : State) : Host.Outcome State Fault Refusal := finish (portByte b s)

end Sys2Proof.Machine
end

