-- ==== Sys2Proof/Machine/Timers.lean ====
section
/-! DEFINITION. The timers that run out (log 8: the row says that the timer's time has passed), one meaning per row. A timer
that is not running has nothing to run out. -/

namespace Sys2Proof.Machine

/-- A peer's lease timer runs out (R48): it stays run out, and EXPIRE is posted with the peer's last sequence. -/
def peerLeaseOut (id : Nat) (s : State) : State :=
  match s.table.rec? id with
  | some r =>
    if r.lease.isRunning ∧ s.control.station.takesPart ∧ id ≠ s.ownId then
      postExpire id r.seq (s.setTable (s.table.put id (some { r with lease := .runOut })))
    else s
  | none => s

/-- PEER_LEASE_TIMEOUT (R48). -/
def execPeerLeaseTimeout (peer : BitVec 4) (s : State) : Host.Outcome State Fault Refusal :=
  finish (peerLeaseOut peer.toNat s)

/-- The renewal timer runs out (R49): a MEMBER posts a STANDING. -/
def renewalOut (s : State) : State :=
  if s.table.renewal.isRunning then
    let s1 := s.setTable { s.table with renewal := .runOut }
    if s1.isMember then post .standing .standing s1 else s1
  else s

/-- RENEWAL_TIMEOUT (R49). -/
def execRenewalTimeout (s : State) : Host.Outcome State Fault Refusal := finish (renewalOut s)

/-- The self-lease timer runs out (R50): a MEMBER resyncs with cause SELF_LEASE. -/
def selfLeaseOut (s : State) : State :=
  if s.table.selfLease.isRunning then
    let s1 := s.setTable { s.table with selfLease := .runOut }
    if s1.isMember then resync .selfLease s1 else s1
  else s

/-- SELF_LEASE (R50). -/
def execSelfLease (s : State) : Host.Outcome State Fault Refusal := finish (selfLeaseOut s)

/-- The roll-call window's timer runs out (R61): the window closes at the next idle. -/
def windowOut (s : State) : State :=
  if s.table.windowTimer.isRunning then s.setTable { s.table with windowTimer := .runOut } else s

/-- ROLLCALL_WINDOW_TIMEOUT (R61). -/
def execRollcallWindowTimeout (s : State) : Host.Outcome State Fault Refusal := finish (windowOut s)

/-- AUTO_REJOIN (R101): the rejoin timer runs out. -/
def execAutoRejoin (s : State) : Host.Outcome State Fault Refusal := finish (rejoinTimeout s)

/-- MEMBERSHIP_TIMEOUT (R102). -/
def execMembershipTimeout (s : State) : Host.Outcome State Fault Refusal := finish (membershipTimeout s)

/-- PURGE_TIMEOUT (R144). -/
def execPurgeTimeout (s : State) : Host.Outcome State Fault Refusal := finish (purgeRanOut s)

/-- PHASE_DURATION_REACHED (R137). -/
def execPhaseDurationReached (s : State) : Host.Outcome State Fault Refusal := finish (durationReached s)

/-- PHASE_LIMIT_REACHED (R137). -/
def execPhaseLimitReached (s : State) : Host.Outcome State Fault Refusal := finish (limitReached s)

end Sys2Proof.Machine
end

