-- ==== Sys2Proof/Machine/Dispatch.lean ====
section
/-! DEFINITION. One arm per command, each one call of its meaning. -/

namespace Sys2Proof.Machine

/-- A command's effect on everything but the queue. -/
def exec (i : Instr) (s : State) : Host.Outcome State Fault Refusal :=
  match i with
  | .startStation => Sys2Proof.Machine.execStartStation s
  | .leaveStation => Sys2Proof.Machine.execLeaveStation s
  | .rejoin => Sys2Proof.Machine.execRejoin s
  | .loadCycle => Sys2Proof.Machine.execLoadCycle s
  | .startCycle => Sys2Proof.Machine.execStartCycle s
  | .hold => Sys2Proof.Machine.execHold s
  | .resume => Sys2Proof.Machine.execResume s
  | .abortCycle => Sys2Proof.Machine.execAbortCycle s
  | .clearFault => Sys2Proof.Machine.execClearFault s
  | .snapshotPeers => Sys2Proof.Machine.execSnapshotPeers s
  | .clearCounters => Sys2Proof.Machine.execClearCounters s
  | .restart inp => Sys2Proof.Machine.execRestart inp s
  | .badCommand code => Sys2Proof.Machine.execBadCommand code s
  | .powerOn inp => Sys2Proof.Machine.execPowerOn inp s
  | .resetPin inp => Sys2Proof.Machine.execResetPin inp s
  | .configWrite b => Sys2Proof.Machine.execConfigWrite b s
  | .nextOutWrite b => Sys2Proof.Machine.execNextOutWrite b s
  | .registerWrite b => Sys2Proof.Machine.execRegisterWrite b s
  | .readLatch b => Sys2Proof.Machine.execReadLatch b s
  | .idle deferred => Sys2Proof.Machine.execIdle deferred s
  | .falseStart => Sys2Proof.Machine.execFalseStart s
  | .arbitrationLost bit => Sys2Proof.Machine.execArbitrationLost bit s
  | .abandonedFrame deferred => Sys2Proof.Machine.execAbandonedFrame deferred s
  | .expire r => Sys2Proof.Machine.execExpire r s
  | .leave r => Sys2Proof.Machine.execLeave r s
  | .release r => Sys2Proof.Machine.execRelease r s
  | .claim r => Sys2Proof.Machine.execClaim r s
  | .rollcall r => Sys2Proof.Machine.execRollcall r s
  | .standing r => Sys2Proof.Machine.execStanding r s
  | .undefinedKindFrame kind r => Sys2Proof.Machine.execUndefinedKindFrame kind r s
  | .voidFrame kind r => Sys2Proof.Machine.execVoidFrame kind r s
  | .peerLeaseTimeout peer => Sys2Proof.Machine.execPeerLeaseTimeout peer s
  | .renewalTimeout => Sys2Proof.Machine.execRenewalTimeout s
  | .selfLease => Sys2Proof.Machine.execSelfLease s
  | .rollcallWindowTimeout => Sys2Proof.Machine.execRollcallWindowTimeout s
  | .autoRejoin => Sys2Proof.Machine.execAutoRejoin s
  | .membershipTimeout => Sys2Proof.Machine.execMembershipTimeout s
  | .sampleSet inp => Sys2Proof.Machine.execSampleSet inp s
  | .doorEdge => Sys2Proof.Machine.execDoorEdge s
  | .doorChange => Sys2Proof.Machine.execDoorChange s
  | .purgeTimeout => Sys2Proof.Machine.execPurgeTimeout s
  | .phaseDurationReached => Sys2Proof.Machine.execPhaseDurationReached s
  | .phaseLimitReached => Sys2Proof.Machine.execPhaseLimitReached s
  | .completion => Sys2Proof.Machine.execCompletion s

end Sys2Proof.Machine
end

