-- ==== Sys2Proof/Machine/Tick.lean ====
section
/-! DEFINITION. What a step does on an empty queue: one tick of 25 microseconds passes (log 7). -/

namespace Sys2Proof.Machine

/-- A record's lease timer one tick on (R47). -/
def Rec.tick (r : Rec) : Rec := { r with lease := r.lease.tick }

/-- The table's timers one tick on. -/
def Table.tick (t : Table) : Table :=
  { t with recs := t.recs.map (fun r => r.map Rec.tick), renewal := t.renewal.tick, selfLease := t.selfLease.tick,
           windowTimer := t.windowTimer.tick }

/-- The tick that now passes would bring an ACTIVE phase to its duration or its limit (R137). -/
def Engine.endsNow (e : Engine) : Bool :=
  e.state == .running .active &&
    (if e.current.stop = .time then decide (e.current.duration * Config.ticksPerSecond ≤ e.phaseTimer + 1)
      else decide (e.current.limit * Config.ticksPerSecond ≤ e.limitTimer + 1))

/-- The engine's timers one tick on (R136): the phase and limit timers count while ACTIVE only, the limit timer only in a phase
whose end is not TIME. The tick that ends the phase is counted with that end, so that the timers stop short of it where
another event of the same tick leaves ACTIVE first (R137, log 9). -/
def Engine.tick (e : Engine) : Engine :=
  let counts := e.state == .running .active && !e.endsNow
  { e with
    phaseTimer := if counts then e.phaseTimer + 1 else e.phaseTimer
    limitTimer := if counts && e.current.stop != .time then e.limitTimer + 1 else e.limitTimer
    purge := e.purge.tick }

/-- The position in the bit time one tick on, while IDLE (R6). -/
def Line.tick (l : Line) : Line :=
  if l.state = .idle then { l with phase := if l.phase + 1 < bitTicks l.rate then l.phase + 1 else 0 } else l

/-- Every clock of the part one tick on. -/
def advanceTimers (s : State) : State :=
  let s1 := ((s.setTable s.table.tick).setEngine s.engine.tick).setLine s.line.tick
  let s2 := s1.setControl
    { s1.control with rejoinTimer := s1.control.rejoinTimer.tick, memberTimer := s1.control.memberTimer.tick }
  let s3 := s2.setMeas { s2.meas with debounce := s2.meas.debounce.tick, nextSample := s2.meas.nextSample.tick }
  s3.setPort { s3.port with taken := s3.port.taken.map (fun t => { t with left := t.left - 1 }) }

/-- An event of time: when it is due and what it does. -/
structure TimeEvent where
  due : State → Bool
  act : State → State

/-- The lease of a peer is due. -/
def leaseDue (id : Nat) (s : State) : Bool :=
  match s.table.rec? id with
  | some r => r.lease.isDue
  | none => false

/-- The time of a taken command's completion is up (R188). -/
def completionDue (s : State) : Bool :=
  match s.port.taken with
  | some t => t.left == 0
  | none => false

/-- The events of time, in the order in which a tick takes those that are due together (log 9). -/
def timeEvents : List TimeEvent :=
  [⟨completionDue, complete⟩] ++
  (List.range 15).map (fun i => ⟨leaseDue (i + 1), peerLeaseOut (i + 1)⟩) ++
  [⟨fun s => s.table.renewal.isDue, renewalOut⟩, ⟨fun s => s.table.selfLease.isDue, selfLeaseOut⟩,
   ⟨fun s => s.table.windowTimer.isDue, windowOut⟩, ⟨fun s => s.control.rejoinTimer.isDue, rejoinTimeout⟩,
   ⟨fun s => s.control.memberTimer.isDue, membershipTimeout⟩, ⟨fun s => s.meas.debounce.isDue, changeDoor⟩,
   ⟨fun s => s.engine.purge.isDue, purgeRanOut⟩, ⟨fun s => s.meas.nextSample.isDue, fun s => takeSample s.meas.inputs s⟩,
   ⟨fun s => s.line.state == .idle && s.line.phase == 0, idleReached false⟩]

/-- A due event is taken, and the Load Drive follows it. -/
def TimeEvent.fire (s : State) (e : TimeEvent) : State := if e.due s then refresh (e.act s) else s

/-- The end of a phase that this tick brings (R137): by its duration, or by its limit. -/
def phaseTimeUp (s : State) : State := if s.engine.current.stop = .time then durationReached s else limitReached s

/-- The phase end that was due as the tick began, taken last and only if the engine still runs to that end. -/
def firePhaseEnd (due : Bool) (s : State) : State := if due && s.engine.endsNow then phaseTimeUp s else s

/-- One tick: the clocks advance, and the events that are due are taken. -/
def tick (s : State) : State :=
  refresh (firePhaseEnd s.engine.endsNow (timeEvents.foldl TimeEvent.fire (advanceTimers s)))

end Sys2Proof.Machine
end

