-- ==== Sys2Proof/Safety.lean ====
section
/-! DEFINITION. What it means for a state of the part to be sound: the laws of the pools and the queue, the bounds on the
loads, the engine's and the Fault Record's consistency, and the vocabulary in which frames of commands are stated. -/

namespace Sys2Proof.Machine

/-! ## Loads (R161, R162, R166 to R169) -/

/-- The rating of the energised stages in units of 100 W (R161). -/
def State.ratedLoad (s : State) : Nat :=
  s.load.heaters * s.cfg.heaterRating.toNat + s.load.steam * s.cfg.steamRating.toNat

/-- The engine runs an ACTIVE phase. -/
def State.isActive (s : State) : Bool := s.engine.state == .running .active

/-- The engine purges: HELD with the purge timer running (R124). -/
def State.isPurging (s : State) : Bool := s.engine.state == .held && s.engine.purge.isRunning

/-- Every load within what the bank has admitted to the station and what the engine asks for. -/
structure LoadSafe (s : State) : Prop where
  /-- R161: the total rating is at most the power units of the own record. -/
  withinShare : s.ratedLoad ≤ s.own.held Share.power
  /-- R161: a stage runs only in a MEMBER with an ADMITTED record and an ACTIVE engine. -/
  heatOnlyActive : 0 < s.load.heaters ∨ 0 < s.load.steam → s.isMember ∧ s.own.isAdmitted ∧ s.isActive
  /-- R160: no more stages than are configured. -/
  stagesFitted : s.load.heaters ≤ s.cfg.heaterCount.toNat ∧ s.load.steam ≤ s.cfg.steamCount.toNat
  /-- R162: steam only in a STEAM phase. -/
  steamOnlySteam : 0 < s.load.steam ∨ s.load.latch → s.engine.current.kind = .steam
  /-- R167: the vent is open at the admitted units, in a venting phase or a purge of a MEMBER. -/
  ventAdmitted : 0 < s.load.vent →
    s.load.vent = s.own.held Share.vent ∧ s.isMember ∧ (s.isActive ∧ s.engine.current.kind.vents ∨ s.isPurging)
  /-- R169: the fill valve is open only for an admitted FILL phase whose reservoir is not FULL. -/
  valveAdmitted : s.load.valve →
    s.isActive ∧ s.engine.current.kind = .fill ∧ s.isMember ∧ s.own.held Share.fill = 1 ∧
      s.meas.sample.reservoir ≠ .full
  /-- R168: exactly when the fan runs. -/
  fanRule : s.load.fan = (s.isMember && ((s.isActive && s.engine.current.kind != .fill) || s.isPurging))

/-! ## Pools and queue (R65, R74) -/

/-- The ADMITTED sums are within the budgets (R65). -/
structure PoolsWithin (s : State) : Prop where
  power : s.table.heldSum Share.power ≤ s.cfg.powerBudget.toNat
  vent : s.table.heldSum Share.vent ≤ s.cfg.ventBudget.toNat
  fill : s.table.heldSum Share.fill ≤ s.cfg.fillBudget.toNat

/-- The Waiting Queue holds exactly the ids whose standing is WAITING, each once (R74). -/
structure QueueIsWaiting (t : Table) : Prop where
  once : t.queue.Nodup
  exact : ∀ id, id ∈ t.queue ↔ (t.holding id).isWaiting = true

/-- In OFFLINE the interface is DETACHED, the list and the table are empty (R18, R36, R40). -/
structure OfflineQuiet (s : State) : Prop where
  detached : s.line.state = .detached
  noFlight : s.out.flight = none
  noEntry : s.out.emptied = s.out
  noRecord : s.table.recs = Vector.replicate 15 none
  noQueue : s.table.queue = []

/-- The laws of the share table with what they rest on: in OFFLINE nothing is held, and on the line the own record is
PRESENT (R39). -/
structure BankInv (s : State) : Prop where
  pools : PoolsWithin s
  queue : QueueIsWaiting s.table
  offline : s.control.station = .offline → OfflineQuiet s
  ownPresent : s.control.station ≠ .offline → (s.table.rec? s.ownId).isSome = true

/-! ## Engine and Fault Record (R123, R174) -/

/-- The Fault Record is filled exactly while the engine is FAULTED (R174), the hold-reason set is empty outside HELD and not
empty in it, and the purge timer runs only in HELD with DOOR in the set (R123). -/
structure EngineInv (s : State) : Prop where
  faultMarked : s.fault.isSome = true ↔ s.engine.state = .faulted
  holdsOnlyHeld : s.engine.holds.isEmpty = false ↔ s.engine.state = .held
  purgeOnlyDoor : s.engine.purge ≠ .stopped →
    s.engine.state = .held ∧ s.engine.holds.door = true ∧ s.engine.purge.isRunning = true

/-! ## The checks of a configuration and of a staged record, written out (R88, R107, R109 to R113) -/

/-- The field at a configuration address is in its range (R88): a scalar, or the first byte of a field of a class entry in use
(R107). Every other address passes. -/
def Settings.FieldOk (c : Settings) (a : Nat) : Prop :=
  (a = 0x010 → 1 ≤ c.stationId.toNat ∧ c.stationId.toNat ≤ 15) ∧ (a = 0x011 → c.rate.toNat ≤ 2) ∧
  (a = 0x012 → 2 ≤ c.lease.toNat ∧ c.lease.toNat ≤ 60) ∧
  (a = 0x013 → 1 ≤ c.powerBudget.toNat ∧ c.powerBudget.toNat ≤ 250) ∧
  (a = 0x014 → 1 ≤ c.ventBudget.toNat ∧ c.ventBudget.toNat ≤ 63) ∧
  (a = 0x015 → 1 ≤ c.fillBudget.toNat ∧ c.fillBudget.toNat ≤ 4) ∧
  (a = 0x016 → 1 ≤ c.heaterCount.toNat ∧ c.heaterCount.toNat ≤ 8) ∧
  (a = 0x017 → 1 ≤ c.heaterRating.toNat ∧ c.heaterRating.toNat ≤ 10) ∧ (a = 0x018 → c.steamCount.toNat ≤ 4) ∧
  (a = 0x019 → c.steamCount.toNat = 0 ∨ (1 ≤ c.steamRating.toNat ∧ c.steamRating.toNat ≤ 10)) ∧
  (a = 0x01A → c.purgeTime.toNat ≤ 120) ∧ (a = 0x01B → c.retryLimit.toNat ≤ 5) ∧
  (a = 0x01C → 8 ≤ c.attemptLimit.toNat ∧ c.attemptLimit.toNat ≤ 64) ∧ (a = 0x01D → c.attention.toNat ≤ 1) ∧
  ∀ i : Fin 6, c.classes[i].isUnused = false →
    (a = 0x020 + 4 * i.val → 30 ≤ c.classes[i].maxTemp.toNat ∧ c.classes[i].maxTemp.toNat ≤ 75) ∧
    (a = 0x021 + 4 * i.val → c.classes[i].steam.toNat ≤ 1) ∧
    (a = 0x022 + 4 * i.val → 1 ≤ c.classes[i].lenHi.toNat * 256 + c.classes[i].lenLo.toNat ∧
      c.classes[i].lenHi.toNat * 256 + c.classes[i].lenLo.toNat ≤ 600)

/-- A staged record passes the check of a reason (R109 to R113, R118), on its codes: kinds 1 FILL, 2 PREHEAT, 3 STEAM,
4 SETTLE, 5 DRY, 6 AIR, 7 COOL and ends 1 TIME, 2 TEMP, 3 HUMID, 4 LEVEL. The reasons that do not concern one record alone pass. -/
def RawPhase.Passes (c : Settings) (k : CareClass) (r : RawPhase) : CycleReason → Prop
  | .kind => 1 ≤ r.kind ∧ r.kind ≤ 7
  | .endCondition =>
    (r.kind, r.stop) ∈ [(1, 4), (2, 1), (2, 2), (3, 1), (3, 3), (4, 1), (5, 1), (5, 2), (5, 3), (6, 1), (6, 3), (7, 1), (7, 2)]
  | .targetRange =>
    (r.temp = 0 ∨ (20 ≤ r.temp ∧ r.temp ≤ 75)) ∧ (r.hum = 0 ∨ (5 ≤ r.hum ∧ r.hum ≤ 95)) ∧
    (r.kind = 2 ∨ r.kind = 5 ∨ (r.kind = 7 ∧ r.stop = 2) → r.temp ≠ 0) ∧
    (r.kind = 1 ∨ (r.kind = 7 ∧ r.stop ≠ 2) → r.temp = 0) ∧
    (r.kind = 3 ∨ (r.kind = 5 ∨ r.kind = 6) ∧ r.stop = 3 → r.hum ≠ 0) ∧
    (r.kind = 1 ∨ r.kind = 2 ∨ r.kind = 4 ∨ r.kind = 7 ∨ (r.kind = 5 ∨ r.kind = 6) ∧ r.stop ≠ 3 → r.hum = 0)
  | .classTemp => r.temp ≤ k.maxTemp.toNat
  | .classSteam => r.kind = 3 → k.steam ≠ 0 ∧ c.steamCount ≠ 0
  | .claimShape =>
    r.power ≤ 63 ∧ r.vent ≤ 31 ∧ (r.kind = 2 ∨ r.kind = 3 ∨ r.kind = 5 → 1 ≤ r.power) ∧
    (r.kind = 1 ∨ r.kind = 7 → r.power = 0) ∧ (r.kind = 3 ∨ r.kind = 5 ∨ r.kind = 6 ∨ r.kind = 7 → 1 ≤ r.vent) ∧
    (r.kind = 1 ∨ r.kind = 4 → r.vent = 0)
  | .claimSize =>
    r.power ≤ c.heaterCount.toNat * c.heaterRating.toNat +
      (if r.kind = 3 then c.steamCount.toNat * c.steamRating.toNat else 0) ∧
    r.power ≤ c.powerBudget.toNat ∧ r.vent ≤ c.ventBudget.toNat ∧ (r.kind = 1 → 1 ≤ c.fillBudget.toNat) ∧
    (r.power = 0 ∨ (if r.kind = 3 then c.steamRating.toNat else c.heaterRating.toNat) ≤ r.power)
  | .duration => if r.stop = 1 then 1 ≤ r.duration ∧ r.duration ≤ 7200 else r.duration = 0
  | .limit => (if r.stop = 1 then r.limit = 0 else 10 ≤ r.limit ∧ r.limit ≤ 14400) ∧ r.onLimit ≤ 1
  | .pad => r.padClear = true
  | .count | .cls | .cycleLength => True

/-- The time of a staged record: its duration or its limit (R112). -/
def RawPhase.time (r : RawPhase) : Nat := if r.stop = 1 then r.duration else r.limit

/-- The phase an accepted record becomes carries the record's codes and numbers (R119, R203). -/
def RawPhase.Becomes (r : RawPhase) (p : Phase) : Prop :=
  p.kind.code = r.kind ∧ p.stop.code = r.stop ∧ (if p.onLimitFault then 1 else 0) = r.onLimit ∧ p.temp = r.temp ∧
    p.hum = r.hum ∧ p.power = r.power ∧ p.vent = r.vent ∧ p.duration = r.duration ∧ p.limit = r.limit

/-! ## Memory -/

/-- The staging memory is in its canonical form and lies in the staging area (R182). -/
def StagingOk (s : State) : Prop :=
  Memory.wf s.port.staging = true ∧ ∀ a, a < 0x100 ∨ 0x1FF < a → Memory.read s.port.staging a = unlisted

/-! ## Frames -/

/-- The queue, the free values used and the configuration are unchanged. -/
def KeepsBase (s t : State) : Prop := t.pending = s.pending ∧ t.free = s.free ∧ t.cfg = s.cfg

/-- The share-line side is unchanged: interface, list, table and Station Control. -/
def KeepsLine (s t : State) : Prop :=
  t.line = s.line ∧ t.out = s.out ∧ t.table = s.table ∧ t.control = s.control

/-- The cabinet side is unchanged but for the load outputs: engine, measurement and Fault Record. -/
def KeepsCabinet (s t : State) : Prop := t.engine = s.engine ∧ t.meas = s.meas ∧ t.fault = s.fault

/-- What the host alone writes or orders in the port is unchanged: parameters, staging area and peer view. -/
def KeepsHostData (s t : State) : Prop :=
  t.port.param1 = s.port.param1 ∧ t.port.param2 = s.port.param2 ∧ t.port.staging = s.port.staging ∧
    t.port.view = s.port.view

/-- The port is unchanged but for the ring and the counters. -/
def KeepsPort (s t : State) : Prop :=
  { t.port with ring := s.port.ring, counters := s.port.counters } = s.port

/-- The load outputs are those that follow from the rest of the new state and from the old outputs (R161 to R169). -/
def LoadsFollow (s t : State) : Prop := t.load = Load.follow { t with load := s.load }

/-- Only the listed counters may differ. -/
def KeepsCounters (cs : List Counter) (s t : State) : Prop := ∀ c, c ∉ cs → t.counter c = s.counter c

/-- A host command was taken with an answer (R188): the code reads the code, the result still the previous answer, the
transaction is over with its counts made. -/
def Answers (code : Byte) (r : Result) (s t : State) : Prop :=
  t.port.code = code ∧ t.port.taken = some ⟨r, Config.completionTicks⟩ ∧ t.port.result = s.port.result ∧
    t.port.txn = .closed ∧ t.port.sdo = .highZ ∧ KeepsHostData s t

/-- The ring and the counters are as the end of the open transaction leaves them: no event, no other count. -/
def Silent (s t : State) : Prop :=
  t.port.ring = s.port.ring ∧ t.port.counters = (endTransaction s).port.counters

/-- A command is answered and does nothing else: no event, no count beyond the transaction's own, no other change. -/
def AnswersOnly (c : Instr) (code : Byte) (r : Result) (s : State) : Prop :=
  ∃ t, exec c s = .next t ∧ Answers code r s t ∧ Silent s t ∧ KeepsBase s t ∧ KeepsLine s t ∧ KeepsCabinet s t ∧
    LoadsFollow s t

/-- The ring after one event more (R196). -/
def Ring.after (r : Ring) (k : EventKind) (subject d0 d1 d2 d3 : Nat) : Ring :=
  r.record (byteOf k.code) (byteOf subject) (byteOf d0) (byteOf d1) (byteOf d2) (byteOf d3)

/-- The engine after the notification LOST (R135, R142, R151). -/
def Engine.afterLost (e : Engine) : Engine :=
  match e.state with
  | .running _ => { e with state := .running .regain }
  | .held => { e with purge := .stopped }
  | .idle | .loaded | .faulted | .complete => e

/-- The ring after STATION_STATE and, for an ADMITTED own record, GRANT_LOST (R85, R106). -/
def State.ringMoved (s : State) (after : StationState) (cause : Cause) (qualifier : Nat) : Ring :=
  let r := s.port.ring.after .stationState s.ownId s.control.station.code after.code cause.code qualifier
  match s.own with
  | .admitted a => r.after .grantLost s.ownId cause.code a.power a.vent a.fill
  | .none | .waiting _ _ => r

/-- The effects common to every entry into GATHERING, on a list already treated (R90): the table cleared, LOST, the events, the
ROLLCALL posted with the configured budgets. -/
def EntersGathering (cause : Cause) (qualifier : Nat) (list : OutList) (s t : State) : Prop :=
  t.control.station = .gathering ∧ t.control.answered = false ∧ t.table = s.table.clear s.ownId ∧
    t.engine = s.engine.afterLost ∧ t.port.ring = s.ringMoved .gathering cause qualifier ∧
    t.out = list.post .rollcall (.rollcall s.cfg.powerBudget s.cfg.ventBudget s.cfg.fillBudget) ∧
    t.meas = s.meas ∧ t.fault = s.fault ∧ KeepsBase s t ∧ LoadsFollow s t

/-- The effects of entry into ISOLATED (R99). -/
def EntersIsolated (cause : Cause) (s t : State) : Prop :=
  t.control.station = .isolated ∧ t.control.isolation = some cause ∧ t.control.memberTimer = .stopped ∧
    t.control.answered = false ∧ t.control.run = 0 ∧ t.control.rejoins = s.control.rejoins ∧
    t.control.rejoinTimer =
      (if cause = .deaf ∨ cause = .silent then .running s.cfg.leaseTicks else .stopped) ∧
    t.table = s.table.clear s.ownId ∧ t.out = { s.out.emptied with drops := 0 } ∧ t.engine = s.engine.afterLost ∧
    t.meas = s.meas ∧ t.fault = s.fault ∧ t.pending = s.pending ∧ t.cfg = s.cfg

/-- The state in which the table takes in a heard frame that ends applied (R4, R13, R15, R97): the interface waits for idle, the
frame is counted, and the DEAF run ends. -/
def State.afterHearing (s : State) (r : Reading) : State :=
  (bump .framesApplied (s.setLine (s.line.frameEnded (if r.slot1Dominant then .echoed else .none)))).setControl
    { s.control with run := 0 }

/-- The station hears the frames on the line and applies them (R18). -/
def Hearing (s : State) : Prop :=
  (s.line.state = .idle ∨ s.line.state = .receiving) ∧ s.control.station.takesPart = true

/-- A frame of a peer that passes the tests of the table: heard without a finding, from a PRESENT sender that is not the
station itself, with the next sequence (R43 to R45). -/
def FromPeer (kind : FrameKind) (r : Reading) (s : State) : Prop :=
  r.finding kind.code = false ∧ r.sender.toNat ≠ 0 ∧ r.sender.toNat ≠ s.ownId ∧
    ∃ p, s.table.rec? r.sender.toNat = some p ∧ r.seq = p.seq + 1

/-- What every applied frame of a peer does besides its kind's effect on the table (R4, R13, R15, R97): the interface waits for
idle, the frame is counted, the DEAF run ends. -/
def HeardFrame (r : Reading) (s t : State) : Prop :=
  t.line = s.line.frameEnded (if r.slot1Dominant then .echoed else .none) ∧ t.control = { s.control with run := 0 } ∧
    t.counter .framesApplied = satInc (s.counter .framesApplied) ∧ t.meas = s.meas ∧ KeepsBase s t ∧ KeepsPort s t

/-- The own record does not wait, so that no scan can accept it. -/
def OwnNotWaiting (s : State) : Prop := s.own.isWaiting = false

/-- The engine, the Fault Record and the list (but for a withdrawn EXPIRE) are unchanged, which a frame does that does not
accept the own record (R29, R80). -/
def KeepsEngineAndList (withdrawn : List Nat) (s t : State) : Prop :=
  t.engine = s.engine ∧ t.fault = s.fault ∧ t.out = withdrawn.foldl OutList.withdraw s.out

/-- The frame the interface is sending, read back as it was sent, with no finding (R9, R14). -/
def ReadsBack (f : Frame) (r : Reading) (s : State) : Prop :=
  s.line.state = .sending ∧ s.line.tx = some f ∧ r = { Reading.clean f.kind.code f.sender f.seq f.payload with
    slot1Dominant := r.slot1Dominant } ∧ s.control.station.takesPart = true

/-- The share is given up (R125): a RELEASE goes to the intent slot of a MEMBER whose record is not NONE or whose slot is
busy. -/
def State.listReleased (s : State) : OutList :=
  if s.isMember ∧ (s.own ≠ .none ∨ s.intentBusy) then s.out.post .intent .release else s.out

end Sys2Proof.Machine
end

