-- ==== Sys2Proof/Certificates/Slice0/Obligations.lean ====
section
/-! DEFINITION. The statements for the provers. -/

open Sys2Proof Sys2Proof.Machine

/-- O1 (00_scope.md): A step runs the command at the front of the queue. -/
def Obligations.QueueFrontRuns : Prop :=
  ∀ (c : Instr) (s : State), step (s.setPending (c :: s.pending)) = exec c s

/-- O2 (R136, R137, R47, R143, R153, R188, R6): With no command waiting, a step is one tick of time: the clocks advance and the events that are due are taken. That an empty queue means a tick is the model's choice (log 7), and so is the order of the events (log 9). The sample that a tick takes reads the inputs as last brought, which is the model's choice too (log 27). -/
def Obligations.EmptyQueueTicks : Prop :=
  ∀ s : State, s.pending = [] →
    step s = .next (tick s) ∧
    (let u := advanceTimers s
     let ends : Prop := s.engine.state = .running .active ∧
       (s.engine.current.stop = .time → s.engine.current.duration * 40000 ≤ s.engine.phaseTimer + 1) ∧
       (s.engine.current.stop ≠ .time → s.engine.current.limit * 40000 ≤ s.engine.limitTimer + 1)
     (s.engine.endsNow = true ↔ ends) ∧
     (Timer.stopped.tick = .stopped ∧ Timer.runOut.tick = .runOut ∧ ∀ n, (Timer.running n).tick = .running (n - 1)) ∧
     u.engine = { s.engine with
       phaseTimer := if s.isActive ∧ s.engine.endsNow = false then s.engine.phaseTimer + 1 else s.engine.phaseTimer
       limitTimer :=
         if s.isActive ∧ s.engine.endsNow = false ∧ s.engine.current.stop ≠ .time then s.engine.limitTimer + 1
         else s.engine.limitTimer
       purge := s.engine.purge.tick } ∧
     (∀ id, u.table.rec? id = (s.table.rec? id).map (fun r => { r with lease := r.lease.tick })) ∧
     u.table = { s.table with
       recs := u.table.recs, renewal := s.table.renewal.tick, selfLease := s.table.selfLease.tick,
       windowTimer := s.table.windowTimer.tick } ∧
     u.line = (if s.line.state = .idle then
       { s.line with phase := if s.line.phase + 1 < bitTicks s.line.rate then s.line.phase + 1 else 0 } else s.line) ∧
     u.control = { s.control with
       rejoinTimer := s.control.rejoinTimer.tick, memberTimer := s.control.memberTimer.tick } ∧
     u.meas = { s.meas with debounce := s.meas.debounce.tick, nextSample := s.meas.nextSample.tick } ∧
     u.port = { s.port with taken := s.port.taken.map (fun x => { x with left := x.left - 1 }) } ∧
     u.out = s.out ∧ u.cfg = s.cfg ∧ u.fault = s.fault ∧ u.load = s.load ∧ u.pending = s.pending ∧ u.free = s.free ∧
     timeEvents.map TimeEvent.act = [complete] ++ (List.range 15).map (fun i => peerLeaseOut (i + 1)) ++
       [renewalOut, selfLeaseOut, windowOut, rejoinTimeout, membershipTimeout, changeDoor, purgeRanOut,
        fun v => takeSample v.meas.inputs v, idleReached false] ∧
     (∀ v : State, timeEvents.map (fun e => e.due v) =
       [completionDue v] ++ (List.range 15).map (fun i => leaseDue (i + 1) v) ++
       [v.table.renewal.isDue, v.table.selfLease.isDue, v.table.windowTimer.isDue, v.control.rejoinTimer.isDue,
        v.control.memberTimer.isDue, v.meas.debounce.isDue, v.engine.purge.isDue, v.meas.nextSample.isDue,
        v.line.state == .idle && v.line.phase == 0]) ∧
     ((∀ e ∈ timeEvents, e.due u = false) → s.engine.endsNow = false → tick s = refresh u) ∧
     (∀ before e after, timeEvents = before ++ e :: after → (∀ d ∈ before, d.due u = false) → e.due u = true →
       tick s = refresh (firePhaseEnd s.engine.endsNow (after.foldl TimeEvent.fire (refresh (e.act u))))) ∧
     ((∀ e ∈ timeEvents, e.due u = false) → s.engine.endsNow = true →
       tick s = refresh (if s.engine.current.stop = .time then durationReached u else limitReached u)))

/-- O3 (R24, R35, R38, R86, R115, R123, R156, R160, R174, R185, R190, R192): The values after reset that the spec gives. -/
def Obligations.ResetLeaves : Prop :=
  State.reset.control = ⟨.offline, none, 0, 0, .stopped, .stopped, false, none⟩ ∧
    State.reset.line.state = .detached ∧ State.reset.line.rate = 1 ∧
    (∀ id, State.reset.out.slot id = ⟨none, none⟩) ∧ State.reset.out.flight = none ∧ State.reset.out.seq = 0 ∧
    State.reset.out.drops = 0 ∧ (∀ id, State.reset.table.rec? id = none) ∧ State.reset.table.queue = [] ∧
    State.reset.table.renewal = .stopped ∧ State.reset.table.selfLease = .stopped ∧
    State.reset.table.windowOpen = false ∧
    (List.range 14).map State.reset.cfg.scalar = [0, 1, 10, 0, 0, 1, 0, 0, 0, 0, 20, 3, 32, 0] ∧
    (List.range 24).map State.reset.cfg.classByte = List.replicate 24 0 ∧
    State.reset.engine.phases = [] ∧ State.reset.engine.cls = 0 ∧ State.reset.engine.stale = false ∧
    State.reset.engine.state = .idle ∧ State.reset.engine.index = 0 ∧ State.reset.engine.holds.isEmpty = true ∧
    State.reset.engine.purge = .stopped ∧ State.reset.load.heaters = 0 ∧ State.reset.load.steam = 0 ∧
    State.reset.load.vent = 0 ∧ State.reset.load.fan = false ∧ State.reset.load.valve = false ∧
    State.reset.load.latch = false ∧ State.reset.fault = none ∧ State.reset.port.code = 0 ∧
    State.reset.port.result = .ok ∧ State.reset.port.param1 = 0 ∧ State.reset.port.param2 = 0 ∧
    (∀ c, State.reset.counter c = 0) ∧ State.reset.port.ring.nextIn = 0 ∧ State.reset.port.ring.nextOut = 0 ∧
    State.reset.port.ring.lost = 0 ∧ State.reset.port.ring.seq = 0 ∧
    State.reset.port.result.code = 0 ∧ State.reset.port.result.detail = (0, 0) ∧ State.reset.port.taken = none ∧
    State.reset.port.ring.firstLost = 0 ∧ (∀ i : Fin 32, State.reset.port.ring.entries[i] = ⟨0, 0, 0, 0, 0, 0, 0⟩) ∧
    State.reset.port.view = ⟨0, .offline, [], Vector.replicate 15 none⟩ ∧
    (∀ a, Memory.read State.reset.port.staging a = 0) ∧ State.reset.engine.phaseTimer = 0 ∧
    State.reset.engine.limitTimer = 0 ∧ State.reset.engine.maxTemp = 0 ∧ State.reset.table.windowTimer = .stopped ∧
    State.reset.meas.lowReported = false

/-- O4 (R65, R74, R161, R174, R182): The state after reset is sound. -/
def Obligations.ResetIsSound : Prop :=
  LoadSafe State.reset ∧ BankInv State.reset ∧ EngineInv State.reset ∧ StagingOk State.reset

/-- O5 (R161, R162, R167, R168, R169): After every step the loads are within the admitted share. -/
def Obligations.LoadsStaySafe : Prop :=
  ∀ s t : State, step s = .next t → LoadSafe t

/-- O6 (R123, R174): The Fault Record marks FAULTED, holds mark HELD, a purge needs DOOR: kept by every step. -/
def Obligations.EngineStaysConsistent : Prop :=
  ∀ s t : State, EngineInv s → step s = .next t → EngineInv t

/-- O7 (R65, R74, R39, R40): The pools stay within the budgets and the queue holds exactly the WAITING ids: kept by every step. -/
def Obligations.BankLawsKept : Prop :=
  ∀ s t : State, BankInv s → step s = .next t → BankInv t

/-- O8 (R182, R192): The staging memory keeps its canonical form and stays inside 0x100 to 0x1FF. -/
def Obligations.StagingStaysCanonical : Prop :=
  ∀ s t : State, StagingOk s → step s = .next t → StagingOk t

/-- O9 (00_scope.md): No command changes the queue of waiting commands. -/
def Obligations.OnlyTheStepTakesCommands : Prop :=
  ∀ (c : Instr) (s : State), ∃ t, exec c s = .next t ∧ t.pending = s.pending

/-- O10 (R187): A command written while another stands in the code field is discarded and counted. -/
def Obligations.BusyPortDiscards : Prop :=
  ∀ (s : State) (c : Instr) (code : Byte) (inp : Inputs),
    ((c, code) ∈ [(Instr.startStation, (0x01 : Byte)), (.leaveStation, 0x02), (.rejoin, 0x03), (.loadCycle, 0x10),
      (.startCycle, 0x11), (.hold, 0x12), (.resume, 0x13), (.abortCycle, 0x14), (.clearFault, 0x15),
      (.snapshotPeers, 0x20), (.clearCounters, 0x21), (.restart inp, 0x3F)] ∨
      (c = .badCommand code ∧ code ≠ 0 ∧ code ∉ commandCodes)) →
    codeRefused code s = true → s.port.txn = .closed →
    ∃ t, exec c s = .next t ∧ t.counter .commandsDiscarded = satInc (s.counter .commandsDiscarded) ∧
      KeepsCounters [.commandsDiscarded] s t ∧ t.port.ring = s.port.ring ∧ t.port.code = s.port.code ∧
      t.port.taken = s.port.taken ∧ t.port.result = s.port.result ∧ KeepsHostData s t ∧ KeepsBase s t ∧
      KeepsLine s t ∧ KeepsCabinet s t ∧ LoadsFollow s t

/-- O11 (R88, R89, R19, R39, R90, R107): START STATION: wrong state, the check of the configuration, and joining the line. -/
def Obligations.StartStationAnswers : Prop :=
  (∀ s : State, codeRefused 0x01 s = false →
     (s.control.station ≠ .offline → AnswersOnly .startStation 0x01 .wrongState s) ∧
     (∀ a, s.control.station = .offline → s.cfg.firstBad = some a →
       AnswersOnly .startStation 0x01 (.badConfig a) s)) ∧
  (∀ s : State, codeRefused 0x01 s = false → s.control.station = .offline → s.cfg.firstBad = none → OfflineQuiet s →
     ∃ t, exec .startStation s = .next t ∧ Answers 0x01 .ok s t ∧
       t.control = { s.control with
         station := .gathering, answered := false, awaited := some .startStation, run := 0, rejoins := 0 } ∧
       t.line.state = .waitIdle ∧ t.line.recessive = 0 ∧ t.line.rate = s.cfg.rate ∧ t.line.id = s.cfg.stationId ∧
       t.line.tx = none ∧
       t.table.rec? s.ownId = some { seq := s.out.seq - 1, lease := .stopped, holding := .none } ∧
       (∀ id, id ≠ s.ownId → t.table.rec? id = none) ∧ t.table.queue = [] ∧ t.table.windowOpen = false ∧
       t.table.renewal = .running s.cfg.renewalTicks ∧ t.table.selfLease = .running s.cfg.selfLeaseTicks ∧
       t.out.rollcall =
         ⟨some ⟨.rollcall s.cfg.powerBudget s.cfg.ventBudget s.cfg.fillBudget, 0, 0⟩, none⟩ ∧
       (∀ id, id ≠ .rollcall → t.out.slot id = ⟨none, none⟩) ∧ t.out.flight = none ∧ t.out.seq = s.out.seq ∧
       t.out.drops = s.out.drops ∧ t.engine = s.engine.afterLost ∧ t.meas = s.meas ∧ t.fault = s.fault ∧
       t.port.ring = s.port.ring.after .stationState s.ownId 0 1 1 0 ∧
       t.port.counters = (endTransaction s).port.counters ∧ KeepsBase s t ∧ LoadsFollow s t) ∧
  (∀ c : Settings,
     let inUse : Prop := ∃ k ∈ c.classes.toList, k.isUnused = false
     (c.firstBad = none ↔ (∀ a, c.FieldOk a) ∧ inUse) ∧
     (∀ a, c.firstBad = some a ↔ (¬ c.FieldOk a ∧ ∀ b < a, c.FieldOk b) ∨ (a = 0x020 ∧ (∀ b, c.FieldOk b) ∧ ¬ inUse)) ∧
     ∀ k : CareClass, k.isUnused = true ↔ k.maxTemp = 0 ∧ k.steam = 0 ∧ k.lenHi = 0 ∧ k.lenLo = 0)

/-- O12 (R103, R96, R95, R90): LEAVE STATION and REJOIN. -/
def Obligations.LeaveStationAnswers : Prop :=
  (∀ s : State, codeRefused 0x02 s = false →
     (s.control.station ≠ .member → AnswersOnly .leaveStation 0x02 .notMember s) ∧
     (s.control.station = .member → s.own ≠ .none ∨ s.intentBusy ∨ s.engine.state.underWay →
       AnswersOnly .leaveStation 0x02 .busy s) ∧
     (s.control.station = .member → s.own = .none → s.intentBusy = false → s.engine.state.underWay = false →
       ∃ t, exec .leaveStation s = .next t ∧ Answers 0x02 .ok s t ∧
         t.control = { s.control with station := .leaving, memberTimer := .stopped, awaited := some .leaveStation } ∧
         t.out = s.out.post .leave .leave ∧ t.line = s.line ∧ t.table = s.table ∧
         t.port.ring = s.port.ring.after .stationState s.ownId 2 3 14 0 ∧
         t.port.counters = (endTransaction s).port.counters ∧ KeepsBase s t ∧ KeepsCabinet s t ∧ LoadsFollow s t)) ∧
  (∀ s : State, codeRefused 0x03 s = false →
     (s.control.station ≠ .member → s.control.station ≠ .isolated → AnswersOnly .rejoin 0x03 .wrongState s) ∧
     (s.control.station = .member → ∃ t, exec .rejoin s = .next t ∧ Answers 0x03 .ok s t ∧
       EntersGathering .rejoin 0 s.out.emptied s t ∧ t.line = s.line ∧
       t.control = { s.control with
         station := .gathering, answered := false, memberTimer := .stopped, awaited := some .rejoin } ∧
       t.counter .resyncs = satInc ((endTransaction s).counter .resyncs)) ∧
     (s.control.station = .isolated → ∃ t, exec .rejoin s = .next t ∧ Answers 0x03 .ok s t ∧
       EntersGathering .rejoin 0 s.out s t ∧ t.line = s.line ∧
       t.control = { s.control with
         station := .gathering, answered := false, rejoinTimer := .stopped, isolation := none, rejoins := 0, run := 0,
         awaited := some .rejoin } ∧
       t.port.counters = (endTransaction s).port.counters))

/-- O13 (R116, R119): LOAD CYCLE: busy, pending fault, and an accepted load. -/
def Obligations.LoadCycleAnswers : Prop :=
  ∀ s : State, codeRefused 0x10 s = false →
    (s.engine.state.underWay = true → AnswersOnly .loadCycle 0x10 .busy s) ∧
    (s.engine.state = .faulted → AnswersOnly .loadCycle 0x10 .faultPending s) ∧
    (∀ k ps, s.engine.state = .idle ∨ s.engine.state = .loaded ∨ s.engine.state = .complete →
      checkCycle s.cfg s.port.staging s.port.param1.toNat s.port.param2.toNat = .ok (k, ps) →
      ∃ t, exec .loadCycle s = .next t ∧ Answers 0x10 .ok s t ∧ Silent s t ∧
        t.engine = { s.engine with
          phases := ps, cls := s.port.param2.toNat, maxTemp := k.maxTemp.toNat, stale := false, state := .loaded,
          index := 0, phaseTimer := 0, limitTimer := 0 } ∧
        t.meas = s.meas ∧ t.fault = s.fault ∧ KeepsBase s t ∧ KeepsLine s t ∧ LoadsFollow s t)

/-- O14 (R120): A load that fails a check is refused and changes nothing. -/
def Obligations.RefusedLoadChangesNothing : Prop :=
  ∀ (s : State) (index : Nat) (reason : CycleReason), codeRefused 0x10 s = false →
    s.engine.state = .idle ∨ s.engine.state = .loaded ∨ s.engine.state = .complete →
    checkCycle s.cfg s.port.staging s.port.param1.toNat s.port.param2.toNat = .error (index, reason) →
    (Result.badCycle index reason).code = 7 ∧
    (Result.badCycle index reason).detail = (byteOf index, byteOf reason.code) ∧
    AnswersOnly .loadCycle 0x10 (.badCycle index reason) s

/-- O15 (R107, R109, R110, R112, R113, R114, R117, R118, R119, R203): LOAD CYCLE's check: the phases it accepts are the staged records, and a refused load names its first failing check. -/
def Obligations.LoadedPhasesAreSound : Prop :=
  ∀ (c : Settings) (m : Memory) (count cls : Nat),
    (count < 1 ∨ 16 < count → checkCycle c m count cls = .error (255, .count)) ∧
    (1 ≤ count → count ≤ 16 → (∀ k, c.careClass? cls = some k → k.isUnused = true ∨ k.isValid = false) →
      checkCycle c m count cls = .error (255, .cls)) ∧
    (∀ k : CareClass,
      (k.isUnused = true ↔ k.maxTemp = 0 ∧ k.steam = 0 ∧ k.lenHi = 0 ∧ k.lenLo = 0) ∧
      (k.isValid = true ↔ (30 ≤ k.maxTemp.toNat ∧ k.maxTemp.toNat ≤ 75) ∧ k.steam.toNat ≤ 1 ∧
        1 ≤ k.lenHi.toNat * 256 + k.lenLo.toNat ∧ k.lenHi.toNat * 256 + k.lenLo.toNat ≤ 600)) ∧
    (∀ (h : 1 ≤ cls ∧ cls ≤ 6), c.careClass? cls = some (c.classes[cls - 1]'(by omega))) ∧
    (¬ (1 ≤ cls ∧ cls ≤ 6) → c.careClass? cls = none) ∧
    (∀ i, m.rawPhase i =
      let b (j : Nat) : Byte := Memory.read m (0x100 + 16 * i + j)
      ⟨(b 0).toNat, (b 1).toNat, (b 2).toNat, (b 3).toNat, (b 4).toNat, (b 5).toNat, (b 6).toNat,
        (b 7).toNat * 256 + (b 8).toNat, (b 9).toNat * 256 + (b 10).toNat,
        b 11 == 0 && b 12 == 0 && b 13 == 0 && b 14 == 0 && b 15 == 0⟩) ∧
    (∀ k, 1 ≤ count → count ≤ 16 → c.careClass? cls = some k → k.isUnused = false → k.isValid = true →
      let sumTo (i : Nat) : Nat := ((List.range (i + 1)).map (fun j => (m.rawPhase j).time)).sum
      let passes (i : Nat) : Prop := (∀ q, (m.rawPhase i).Passes c k q) ∧ sumTo i ≤ (k.lenHi.toNat * 256 + k.lenLo.toNat) * 60
      (∀ k' ps, checkCycle c m count cls = .ok (k', ps) ↔
        k' = k ∧ (∀ i < count, passes i) ∧ ps.length = count ∧
          ∀ i p, ps[i]? = some p → (m.rawPhase i).Becomes p) ∧
      (∀ i reason, checkCycle c m count cls = .error (i, reason) ↔
        i < count ∧ (∀ j < i, passes j) ∧
          ((¬ (m.rawPhase i).Passes c k reason ∧ ∀ q, q.code < reason.code → (m.rawPhase i).Passes c k q) ∨
           (reason = .cycleLength ∧ (∀ q, (m.rawPhase i).Passes c k q) ∧
             (k.lenHi.toNat * 256 + k.lenLo.toNat) * 60 < sumTo i))))

/-- O16 (R127): START CYCLE is answered by the engine, then the cycle table, then the station. -/
def Obligations.StartCycleAnswers : Prop :=
  ∀ s : State, codeRefused 0x11 s = false →
    (s.engine.state = .faulted → AnswersOnly .startCycle 0x11 .faultPending s) ∧
    (s.engine.state.underWay = true → AnswersOnly .startCycle 0x11 .busy s) ∧
    (s.engine.state = .idle → AnswersOnly .startCycle 0x11 .noCycle s) ∧
    (s.engine.state = .loaded ∨ s.engine.state = .complete → s.engine.stale = true →
      AnswersOnly .startCycle 0x11 .noCycle s) ∧
    (s.engine.state = .loaded ∨ s.engine.state = .complete → s.engine.stale = false → s.control.station ≠ .member →
      AnswersOnly .startCycle 0x11 .notMember s) ∧
    (s.engine.state = .loaded ∨ s.engine.state = .complete → s.engine.stale = false → s.control.station = .member →
      ∃ t, exec .startCycle s = .next t ∧ Answers 0x11 .ok s t)

/-- O17 (R128, R129, R130, R156): An accepted START CYCLE enters phase 0 afresh. That HOLD_ON's last byte, the substate left, is 0 at the start of a cycle is the model's reading (log 24). -/
def Obligations.StartCycleEntersPhaseZero : Prop :=
  ∀ s : State, codeRefused 0x11 s = false → s.engine.state = .loaded ∨ s.engine.state = .complete →
    s.engine.stale = false → s.control.station = .member →
    let p := s.engine.phases.getD 0 Phase.blank
    let ring := s.port.ring.after .phaseStart 0 p.kind.code p.power p.vent p.kind.fillFlag
    (s.meas.doorOpen = true → ∃ t, exec .startCycle s = .next t ∧ Answers 0x11 .ok s t ∧
      t.engine = { s.engine with
        state := .held, holds := ⟨false, true, false⟩, index := 0, phaseTimer := 0, limitTimer := 0, purge := .stopped } ∧
      t.out = s.listReleased ∧ t.port.ring = ring.after .holdOn 0 2 2 0 0 ∧
      t.meas = { s.meas with lowReported := false } ∧ t.line = s.line ∧ t.table = s.table ∧ t.control = s.control ∧
      t.fault = s.fault ∧ t.port.counters = (endTransaction s).port.counters ∧ KeepsBase s t ∧ LoadsFollow s t) ∧
    (s.meas.doorOpen = false → (p.kind.makesCondensate = true → s.meas.sample.tankFull = false) →
      (p.kind = .steam → s.meas.sample.reservoir ≠ .empty) → p.request.isZero = false → s.own = .none →
      ∃ t, exec .startCycle s = .next t ∧ Answers 0x11 .ok s t ∧
        t.engine = { s.engine with state := .running .claiming, index := 0, phaseTimer := 0, limitTimer := 0 } ∧
        t.out = s.out.post .intent (.claim ⟨p.power, p.vent, p.kind.fillFlag, p.kind⟩) ∧ t.port.ring = ring ∧
        t.meas = { s.meas with lowReported := false } ∧ t.line = s.line ∧ t.table = s.table ∧ t.control = s.control ∧
        t.fault = s.fault ∧ t.port.counters = (endTransaction s).port.counters ∧ KeepsBase s t ∧ LoadsFollow s t)

/-- O18 (R129, R130, R138, R139, R135, R128, R137, R147, R148, R141, R172): Entering a phase: the entry tests in their order, where they are made, and what ends a phase. The substate that HOLD_ON names at a phase entry is the model's reading (log 24). So are the acting of PHASE_DURATION_REACHED and PHASE_LIMIT_REACHED with time left (log 8) and an IDLE row that finds the interface in IDLE (log 13). -/
def Obligations.PhaseEntries : Prop :=
  (∀ (left : Option Substate) (s : State),
     let p := s.engine.current
     let ajar := s.meas.doorOpen = true
     let tank := (p.kind = .steam ∨ p.kind = .dry) ∧ s.meas.sample.tankFull = true
     let dry := p.kind = .steam ∧ s.meas.sample.reservoir = .empty
     let clear := ¬ ajar ∧ ¬ tank ∧ ¬ dry
     let zero := p.power = 0 ∧ p.vent = 0 ∧ p.kind ≠ .fill
     let covered (a : Share) := p.power ≤ a.power ∧ p.vent ≤ a.vent ∧ (p.kind = .fill → 1 ≤ a.fill)
     let same (a : Share) := a.power = p.power ∧ a.vent = p.vent ∧ a.fill = (if p.kind = .fill then 1 else 0)
     let code : Nat := match left with
       | some b => b.code
       | none => 0
     let claimed (b : Substate) : State := (s.setEngine { s.engine with state := .running b }).setOut
       (s.out.post .intent (.claim ⟨p.power, p.vent, if p.kind = .fill then 1 else 0, p.kind⟩))
     ∀ t, t = entryTests left s →
       (ajar → t.engine = { s.engine with state := .held, holds := ⟨false, true, false⟩, purge := .stopped } ∧
         t.out = s.listReleased ∧ t.port.ring = s.port.ring.after .holdOn s.engine.index 2 2 code 0) ∧
       (¬ ajar → tank → t.engine = { s.engine with state := .held, holds := ⟨false, false, true⟩, purge := .stopped } ∧
         t.out = s.listReleased ∧ t.port.ring = s.port.ring.after .holdOn s.engine.index 4 4 code 0) ∧
       (¬ ajar → ¬ tank → dry →
         t.engine = { s.engine with state := .faulted, purge := .stopped, holds := HoldSet.empty } ∧
         t.out = s.listReleased ∧ t.port.ring = s.port.ring.after .fault s.engine.index 3 3 6 0 ∧
         t.fault = some ⟨.noWater, s.engine.index, .steam, .entry, HoldSet.empty, s.meas.sample.air, s.meas.sample.hum, 0, none⟩) ∧
       (clear → s.control.station ≠ .member → t = s.setEngine { s.engine with state := .running .regain }) ∧
       (clear → s.control.station = .member → zero →
         t = (s.setOut s.listReleased).setEngine { s.engine with state := .running .active }) ∧
       (∀ a, clear → s.control.station = .member → ¬ zero → s.own = .admitted a → covered a →
         (same a ∧ s.intentBusy = false → t = s.setEngine { s.engine with state := .running .active }) ∧
         (¬ (same a ∧ s.intentBusy = false) → t = claimed .active)) ∧
       (clear → s.control.station = .member → ¬ zero → (∀ a, s.own = .admitted a → ¬ covered a) →
         t = claimed .claiming)) ∧
  (∀ (index : Nat) (left : Option Substate) (s : State), enterFresh index left s =
     (let q := s.engine.phases.getD index Phase.blank
      entryTests left ((s.setEngine { s.engine with index := index, phaseTimer := 0, limitTimer := 0 }).setPort
        { s.port with ring := (s.port.ring.after .phaseStart index q.kind.code q.power q.vent
            (if q.kind = .fill then 1 else 0)) }))) ∧
  (∀ (outcome : Nat) (s : State),
     let secs := s.engine.phaseTimer / 40000
     let u := s.setPort { s.port with ring := (s.port.ring.after .phaseEnd s.engine.index s.engine.current.kind.code
       outcome (secs / 256) secs) }
     (s.engine.index + 1 < s.engine.phases.length →
       endPhase outcome s = enterFresh (s.engine.index + 1) (some .active) u) ∧
     (s.engine.phases.length ≤ s.engine.index + 1 → endPhase outcome s =
       ((u.setOut s.listReleased).setEngine { s.engine with state := .complete }).setPort
         { u.port with ring := u.port.ring.after .cycleDone s.engine.index s.engine.phases.length s.engine.cls 0 0 })) ∧
  (∀ s : State,
     (codeRefused 0x11 s = false → s.engine.state = .loaded ∨ s.engine.state = .complete → s.engine.stale = false →
       s.control.station = .member →
       let u := endTransaction (storeCode 0x11 s)
       exec .startCycle s = .next (refresh (answered .ok (enterFresh 0 none (u.setMeas { s.meas with lowReported := false }))))) ∧
     (s.engine.state = .running .active → s.engine.current.stop = .time → exec .phaseDurationReached s =
       .next (refresh (endPhase 1 (s.setEngine { s.engine with phaseTimer := s.engine.current.duration * 40000 })))) ∧
     (s.engine.state = .running .active → s.engine.current.stop ≠ .time → s.engine.current.onLimitFault = false →
       exec .phaseLimitReached s = .next (refresh (endPhase 2 (s.setEngine { s.engine with
         phaseTimer := s.engine.current.limit * 40000, limitTimer := s.engine.current.limit * 40000 })))) ∧
     (codeRefused 0x13 s = false → s.engine.state = .held → s.engine.holds = ⟨true, false, false⟩ →
       let u := endTransaction (storeCode 0x13 s)
       exec .resume s = .next (refresh (answered .ok (entryTests none ((u.setEngine { s.engine with
         holds := HoldSet.empty, purge := .stopped }).setPort
         { u.port with ring := s.port.ring.after .holdOff s.engine.index 1 0 0 0 }))))) ∧
     (s.line.state = .waitIdle ∨ s.line.state = .idle → s.table.windowOpen = true → s.table.windowTimer = .runOut →
       s.control.station = .gathering → s.control.answered = true → s.table.renewal ≠ .runOut →
       s.table.selfLease ≠ .runOut → s.control.awaited = none → s.engine.state = .running .regain → s.own = .none →
       s.meas.doorOpen = false → (s.engine.current.kind.makesCondensate = true → s.meas.sample.tankFull = false) →
       (s.engine.current.kind = .steam → s.meas.sample.reservoir ≠ .empty) → s.engine.current.request.isZero = false →
       ∃ t, exec (.idle true) s = .next t ∧ t.control.station = .member ∧
         t.engine = { s.engine with state := .running .claiming } ∧
         t.out = s.out.post .intent (.claim s.engine.current.request)))

/-- O19 (R140): HOLD. -/
def Obligations.HoldAnswers : Prop :=
  ∀ s : State, codeRefused 0x12 s = false →
    (∀ b, s.engine.state = .running b → ∃ t, exec .hold s = .next t ∧ Answers 0x12 .ok s t ∧
      t.engine = { s.engine with state := .held, holds := ⟨true, false, false⟩, purge := .stopped } ∧
      t.out = s.listReleased ∧ t.port.ring = s.port.ring.after .holdOn s.engine.index 1 1 b.code 0 ∧
      t.port.counters = (endTransaction s).port.counters ∧ t.line = s.line ∧ t.table = s.table ∧
      t.control = s.control ∧ t.meas = s.meas ∧ t.fault = s.fault ∧ KeepsBase s t ∧ LoadsFollow s t ∧
      t.load.heaters = 0 ∧ t.load.steam = 0 ∧ t.load.vent = 0 ∧ t.load.fan = false ∧ t.load.valve = false) ∧
    (s.engine.state = .held → s.engine.holds.host = false → ∃ t, exec .hold s = .next t ∧ Answers 0x12 .ok s t ∧
      t.engine = { s.engine with holds := { s.engine.holds with host := true } } ∧
      t.port.ring = s.port.ring.after .holdOn s.engine.index 1 { s.engine.holds with host := true }.code 0 0 ∧
      t.port.counters = (endTransaction s).port.counters ∧ t.meas = s.meas ∧ t.fault = s.fault ∧ KeepsLine s t ∧
      KeepsBase s t ∧ LoadsFollow s t) ∧
    (s.engine.state = .held → s.engine.holds.host = true → AnswersOnly .hold 0x12 .ok s) ∧
    (s.engine.state = .faulted → AnswersOnly .hold 0x12 .faultPending s) ∧
    (s.engine.state = .idle ∨ s.engine.state = .loaded ∨ s.engine.state = .complete →
      AnswersOnly .hold 0x12 .wrongState s)

/-- O20 (R148, R147, R130): RESUME. -/
def Obligations.ResumeAnswers : Prop :=
  ∀ s : State, codeRefused 0x13 s = false →
    (s.engine.state = .held → s.engine.holds.host = true → s.engine.holds.door = true ∨ s.engine.holds.tank = true →
      ∃ t, exec .resume s = .next t ∧ Answers 0x13 .ok s t ∧
        t.engine = { s.engine with holds := { s.engine.holds with host := false } } ∧
        t.port.ring = s.port.ring.after .holdOff s.engine.index 1 { s.engine.holds with host := false }.code 0 0 ∧
        t.port.counters = (endTransaction s).port.counters ∧ t.meas = s.meas ∧ t.fault = s.fault ∧ KeepsLine s t ∧
        KeepsBase s t ∧ LoadsFollow s t) ∧
    (s.engine.state = .held → s.engine.holds = ⟨true, false, false⟩ → s.meas.doorOpen = false →
      (s.engine.current.kind.makesCondensate = true → s.meas.sample.tankFull = false) →
      (s.engine.current.kind = .steam → s.meas.sample.reservoir ≠ .empty) → s.control.station = .member →
      s.own = .none → s.engine.current.request.isZero = false →
      ∃ t, exec .resume s = .next t ∧ Answers 0x13 .ok s t ∧
        t.engine = { s.engine with state := .running .claiming, holds := HoldSet.empty, purge := .stopped } ∧
        t.out = s.out.post .intent (.claim s.engine.current.request) ∧
        t.port.ring = s.port.ring.after .holdOff s.engine.index 1 0 0 0 ∧
        t.port.counters = (endTransaction s).port.counters ∧ t.meas = s.meas ∧ t.fault = s.fault ∧ t.line = s.line ∧
        t.table = s.table ∧ t.control = s.control ∧ KeepsBase s t ∧ LoadsFollow s t) ∧
    (s.engine.state = .held → s.engine.holds.host = false → AnswersOnly .resume 0x13 .wrongState s) ∧
    (s.engine.state = .faulted → AnswersOnly .resume 0x13 .faultPending s) ∧
    (s.engine.state ≠ .held → s.engine.state ≠ .faulted → AnswersOnly .resume 0x13 .wrongState s)

/-- O21 (R149, R179): ABORT CYCLE and CLEAR FAULT. -/
def Obligations.AbortAnswers : Prop :=
  (∀ s : State, codeRefused 0x14 s = false →
     (s.engine.state.underWay = true → ∃ t, exec .abortCycle s = .next t ∧ Answers 0x14 .ok s t ∧ Silent s t ∧
       t.engine = { s.engine with
         state := .loaded, index := 0, phaseTimer := 0, limitTimer := 0, holds := HoldSet.empty, purge := .stopped } ∧
       t.out = s.listReleased ∧ t.line = s.line ∧ t.table = s.table ∧ t.control = s.control ∧ t.meas = s.meas ∧
       t.fault = s.fault ∧ KeepsBase s t ∧ LoadsFollow s t) ∧
     (s.engine.state = .faulted → AnswersOnly .abortCycle 0x14 .faultPending s) ∧
     (s.engine.state = .idle ∨ s.engine.state = .loaded ∨ s.engine.state = .complete →
       AnswersOnly .abortCycle 0x14 .wrongState s)) ∧
  (∀ s : State, codeRefused 0x15 s = false →
     (s.engine.state ≠ .faulted → AnswersOnly .clearFault 0x15 .wrongState s) ∧
     (∀ r, s.engine.state = .faulted → s.fault = some r → clearCondition s.engine s.meas.sample r.code = true →
       AnswersOnly .clearFault 0x15 (.conditionPresent r.code) s) ∧
     (∀ r c, s.engine.state = .faulted → s.fault = some r → clearCondition s.engine s.meas.sample r.code = false →
       r.last = some c → clearCondition s.engine s.meas.sample c = true →
       AnswersOnly .clearFault 0x15 (.conditionPresent c) s) ∧
     (∀ r, s.engine.state = .faulted → s.fault = some r → clearCondition s.engine s.meas.sample r.code = false →
       (∀ c, r.last = some c → clearCondition s.engine s.meas.sample c = false) →
       ∃ t, exec .clearFault s = .next t ∧ Answers 0x15 .ok s t ∧ Silent s t ∧ t.fault = none ∧
         t.engine = { s.engine with state := .loaded, index := 0, phaseTimer := 0, limitTimer := 0 } ∧
         t.meas = s.meas ∧ KeepsBase s t ∧ KeepsLine s t ∧ LoadsFollow s t) ∧
     (∀ (e : Engine) (m : Sample),
       (clearCondition e m .overTemp = true ↔ ∀ x, m.air = some x → 2 * (e.maxTemp : Int) < x) ∧
       (clearCondition e m .sensor = true ↔ m.air = none ∨ m.hum = none) ∧
       (clearCondition e m .noWater = true ↔ m.reservoir = .empty) ∧
       clearCondition e m .phaseLimit = false ∧ clearCondition e m .claimRefused = false))

/-- O22 (R190, R189, R191): SNAPSHOT PEERS, an undefined code, and CLEAR COUNTERS. -/
def Obligations.SnapshotAndBadCommand : Prop :=
  (∀ s : State,
     (codeRefused 0x20 s = false → ∃ t, exec .snapshotPeers s = .next t ∧ t.port.code = 0x20 ∧
       t.port.taken = some ⟨.ok, Config.completionTicks⟩ ∧ t.port.view.number = s.port.view.number + 1 ∧
       t.port.view.station = s.control.station ∧ t.port.view.queue = s.table.queue ∧
       t.port.view.recs = s.table.recs.map (fun r => r.map (fun x => ⟨x.seq, x.holding,
         match x.lease with
         | .running n => n / 4000
         | .stopped => 0
         | .runOut => 0⟩)) ∧
       t.port.staging = s.port.staging ∧ t.port.param1 = s.port.param1 ∧ t.port.param2 = s.port.param2 ∧
       t.port.txn = .closed ∧ Silent s t ∧ KeepsBase s t ∧ KeepsLine s t ∧ KeepsCabinet s t ∧ LoadsFollow s t) ∧
     (∀ code : Byte, code ≠ 0 → code ∉ commandCodes → codeRefused code s = false →
       (Result.badCommand code).code = 1 ∧ (Result.badCommand code).detail = (0, code) ∧
       AnswersOnly (.badCommand code) code (.badCommand code) s)) ∧
  (∀ s : State, codeRefused 0x21 s = false →
     (∀ x, s.port.txn = .opened x → x.lostCode = false ∧ x.lostConfig = false) →
     ∃ t, exec .clearCounters s = .next t ∧ Answers 0x21 .ok s t ∧ (∀ c, t.counter c = 0) ∧
       t.port.ring = { s.port.ring with lost := 0, firstLost := 0 } ∧ t.pending = s.pending ∧ t.cfg = s.cfg ∧
       t.free = s.free + 1 ∧ KeepsLine s t ∧ KeepsCabinet s t ∧ LoadsFollow s t)

/-- O23 (R192, R153, R154, R155, R157): POWER_ON, RESET_PIN and RESTART. The level of SDO in a transaction ignored after the reset is the model's choice (log 38), as is the queue's staying (log 35). -/
def Obligations.ResetsReset : Prop :=
  ∀ (s : State) (inp : Inputs) (c : Instr), c = .powerOn inp ∨ c = .resetPin inp ∨ (c = .restart inp ∧ codeRefused 0x3F s = false) →
    ∃ (airUp humUp : Bool) (t : State), exec c s = .next t ∧ t.cfg = Settings.reset ∧ t.line = Line.reset ∧
      t.out = OutList.reset ∧ t.table = Table.reset ∧ t.control = Control.reset ∧ t.engine = Engine.reset ∧
      t.load = Load.reset ∧ t.fault = none ∧
      t.port = { Port.reset with txn := if inp.ncsLow then .ignored else .closed } ∧
      t.meas.sample = sampleOf airUp humUp inp.sensors ∧
      t.meas.sample.reservoir = levelOf inp.sensors.rlvl1 inp.sensors.rlvl0 ∧
      t.meas.sample.tankFull = inp.sensors.tank ∧ t.meas.airBad = (if t.meas.sample.air.isSome then 0 else 1) ∧
      t.meas.humBad = (if t.meas.sample.hum.isSome then 0 else 1) ∧ t.meas.inputs = inp.sensors ∧
      t.meas.nextSample = .running 40000 ∧ t.meas.doorOpen = true ∧ t.meas.doorPinClosed = inp.doorClosed ∧
      t.meas.lowReported = false ∧
      t.meas.debounce = (if inp.doorClosed then .running Config.debounceTicks else .stopped) ∧
      t.meas.markOverTemp = (match t.meas.sample.air with
        | some x => decide (170 < x)
        | none => false) ∧
      t.meas.markSensor = false ∧ t.meas.markNoWater = false ∧ t.pending = s.pending

/-- O24 (R188, R186): COMPLETION writes the answer and frees the code field. -/
def Obligations.CompletionWrites : Prop :=
  ∀ (s : State) (x : Taken), s.port.taken = some x →
    ∃ t, exec .completion s = .next t ∧ t.port = { s.port with result := x.result, code := 0, taken := none } ∧
      KeepsBase s t ∧ KeepsLine s t ∧ KeepsCabinet s t ∧ LoadsFollow s t

/-- O25 (R87, R121, R182, R185, R186, R187, R181, R197): A written byte goes where its address says. -/
def Obligations.WritesAreTestedByRegion : Prop :=
  ∀ (s : State) (c : Instr) (b : SpiByte) (x : OpenTxn),
    c = .configWrite b ∨ c = .nextOutWrite b ∨ c = .registerWrite b → b.starts = false → b.whole = true →
    b.ends = false → s.port.txn = .opened x → x.mode = .write →
    let a := x.addr.toNat
    let isConfig (j : Nat) : Prop := (0x010 ≤ j ∧ j ≤ 0x01D) ∨ (0x020 ≤ j ∧ j ≤ 0x037)
    let kept (t : State) : Prop := KeepsLine s t ∧ t.meas = s.meas ∧ t.fault = s.fault ∧ t.pending = s.pending ∧
      t.free = s.free ∧ LoadsFollow s t
    let next : Txn := .opened { x with addr := x.addr + 1 }
    (isConfig a → s.control.station = .offline → ∃ t, exec c s = .next t ∧ kept t ∧
      (∀ j, isConfig j → t.exchange j = if j = a then b.value else s.exchange j) ∧
      t.engine = { s.engine with stale := s.engine.stale || !s.engine.phases.isEmpty } ∧
      t.port = { s.port with sdo := .low, txn := next }) ∧
    (isConfig a → s.control.station ≠ .offline → ∃ t, exec c s = .next t ∧ kept t ∧ t.cfg = s.cfg ∧
      t.engine = s.engine ∧
      t.port = { s.port with sdo := .low, txn := .opened { x with addr := x.addr + 1, lostConfig := true } }) ∧
    (a = 0x080 → s.port.code = 0 → ∃ t, exec c s = .next t ∧ kept t ∧ t.cfg = s.cfg ∧ t.engine = s.engine ∧
      t.port = { s.port with
        sdo := .low, code := b.value, txn := .opened { x with addr := x.addr + 1, storedCode := b.value != 0 } }) ∧
    (a = 0x080 → s.port.code ≠ 0 → ∃ t, exec c s = .next t ∧ kept t ∧ t.cfg = s.cfg ∧ t.engine = s.engine ∧
      t.port = { s.port with sdo := .low, txn := .opened { x with addr := x.addr + 1, lostCode := true } }) ∧
    (a = 0x084 → ∃ t, exec c s = .next t ∧ kept t ∧ t.cfg = s.cfg ∧ t.engine = s.engine ∧
      t.port = { s.port with sdo := .low, param1 := b.value, txn := next }) ∧
    (a = 0x085 → ∃ t, exec c s = .next t ∧ kept t ∧ t.cfg = s.cfg ∧ t.engine = s.engine ∧
      t.port = { s.port with sdo := .low, param2 := b.value, txn := next }) ∧
    (0x100 ≤ a → a ≤ 0x1FF → ∃ t, exec c s = .next t ∧ kept t ∧ t.cfg = s.cfg ∧ t.engine = s.engine ∧
      t.port = { s.port with sdo := .low, staging := Memory.write s.port.staging a b.value, txn := next } ∧
      (Memory.wf s.port.staging = true →
        ∀ j, Memory.read t.port.staging j = if j = a then b.value else Memory.read s.port.staging j)) ∧
    (a = 0x0F1 → ∃ t, exec c s = .next t ∧ kept t ∧ t.cfg = s.cfg ∧ t.engine = s.engine ∧
      t.port = { s.port with
        sdo := .low, txn := next,
        ring := { s.port.ring with
          nextOut :=
            if b.value.toNat ≤ 31 ∧
                (b.value.toNat + 32 - s.port.ring.nextOut.toNat) % 32 ≤
                  (s.port.ring.nextIn.toNat + 32 - s.port.ring.nextOut.toNat) % 32
            then BitVec.ofNat 5 b.value.toNat else s.port.ring.nextOut } }) ∧
    (¬ isConfig a → a ≠ 0x080 → a ≠ 0x084 → a ≠ 0x085 → a ≠ 0x0F1 → ¬ (0x100 ≤ a ∧ a ≤ 0x1FF) →
      ∃ t, exec c s = .next t ∧ kept t ∧ t.cfg = s.cfg ∧ t.engine = s.engine ∧
        t.port = { s.port with sdo := .low, txn := next })

/-- O26 (R181, R182, R183): A READ latches a coherent region at its first byte and serves it from the latch. -/
def Obligations.ReadsAreCoherent : Prop :=
  ∀ (s : State) (b : SpiByte) (x : OpenTxn), b.starts = false → b.ends = false →
    s.port.txn = .opened x → x.mode = .read →
    let a := x.addr.toNat
    let inside (r : Coherent) (first last : Nat) : Prop :=
      (r, first, last) ∈ [(Coherent.status, 0x090, 0x0BF), (.faultRecord, 0x0C0, 0x0CF), (.counters, 0x0D0, 0x0EF),
        (.ringControl, 0x0F0, 0x0F7), (.peerView, 0x300, 0x38F)] ∧ first ≤ a ∧ a ≤ last
    let shifted (l : Latches) (v : Byte) : Prop := ∃ t, exec (.readLatch b) s = .next t ∧
      t.port = { s.port with sdo := .byte v, txn := .opened { x with addr := x.addr + 1, latches := l } } ∧
      KeepsBase s t ∧ KeepsLine s t ∧ KeepsCabinet s t ∧ LoadsFollow s t
    ((∀ r first last, ¬ inside r first last) → shifted x.latches (s.exchange a)) ∧
    (∀ r first last, inside r first last → x.latches.get r = none →
      shifted (x.latches.set r (r.bytes s)) (s.exchange a) ∧
      ∀ j, first ≤ j → j ≤ last → (r.bytes s).getD (j - first) 0 = s.exchange j) ∧
    (∀ r first last bs, inside r first last → x.latches.get r = some bs →
      shifted x.latches (bs.getD (a - first) 0))

/-- O27 (R181, R87, R187, R188, R192): The header opens a transaction byte by byte, and the rising edge of NCS ends it and takes a stored code. That RESTART finds the pins as last brought is the model's choice (log 14). That a byte of a transaction ignored after a reset leaves SDO as it was is log 38's choice. -/
def Obligations.TransactionsBeginAndEnd : Prop :=
  ∀ (s : State) (b : SpiByte),
    (b.starts = true → portByte b s = portByte { b with starts := false }
      ((closeTransaction s).setPort { (closeTransaction s).port with txn := .header [], sdo := .low })) ∧
    (b.ends = true → portByte b s = closeTransaction (portByte { b with ends := false } s)) ∧
    (b.starts = false → b.ends = false →
      let header (x : Txn) : State := s.setPort { s.port with txn := x, sdo := .low }
      (s.port.txn = .closed ∨ s.port.txn = .ignored → portByte b s = s) ∧
      (∀ bytes, s.port.txn = .header bytes → b.whole = false → portByte b s = header (.header bytes)) ∧
      (s.port.txn = .header [] → b.whole = true → portByte b s = header (.header [b.value])) ∧
      (∀ cmd, s.port.txn = .header [cmd] → b.whole = true → portByte b s = header (.header [cmd, b.value])) ∧
      (∀ cmd hi, s.port.txn = .header [cmd, hi] → b.whole = true → portByte b s = header (.opened
        ⟨if cmd = 0x03 then .read else if cmd = 0x02 then .write else .dead,
          BitVec.ofNat 11 (hi.toNat % 8 * 256 + b.value.toNat), false, false, false, ⟨none, none, none, none, none⟩⟩)) ∧
      (∀ x, s.port.txn = .opened x → x.mode = .dead ∨ (x.mode = .write ∧ b.whole = false) →
        portByte b s = s.setPort { s.port with sdo := .low })) ∧
    ((∀ x, s.port.txn ≠ .opened x) → closeTransaction s = s.setPort { s.port with txn := .closed, sdo := .highZ }) ∧
    (∀ x, s.port.txn = .opened x → x.storedCode = false →
      let t := closeTransaction s
      t.port.txn = .closed ∧ t.port.sdo = .highZ ∧
      t.counter .configRefused = (if x.lostConfig then satInc (s.counter .configRefused) else s.counter .configRefused) ∧
      t.counter .commandsDiscarded =
        (if x.lostCode then satInc (s.counter .commandsDiscarded) else s.counter .commandsDiscarded) ∧
      KeepsCounters [.configRefused, .commandsDiscarded] s t ∧ t.port.ring = s.port.ring ∧ t.port.code = s.port.code ∧
      KeepsHostData s t ∧ KeepsBase s t ∧ KeepsLine s t ∧ KeepsCabinet s t ∧ t.load = s.load) ∧
    (∀ x, s.port.txn = .opened x → x.storedCode = true → s.port.taken = none →
      (∀ (c : Instr) (code : Byte), (c, code) ∈ [(Instr.startStation, (0x01 : Byte)), (.leaveStation, 0x02), (.rejoin, 0x03),
          (.loadCycle, 0x10), (.startCycle, 0x11), (.hold, 0x12), (.resume, 0x13), (.abortCycle, 0x14),
          (.clearFault, 0x15), (.snapshotPeers, 0x20), (.clearCounters, 0x21),
          (.restart ⟨s.meas.inputs, s.meas.doorPinClosed, false⟩, 0x3F)] →
        s.port.code = code → exec c s = .next (refresh (closeTransaction s))) ∧
      (s.port.code ≠ 0 → s.port.code ∉ commandCodes →
        exec (.badCommand s.port.code) s = .next (refresh (closeTransaction s)))) ∧
    (∀ c ∈ [Instr.configWrite b, .nextOutWrite b, .registerWrite b, .readLatch b],
      exec c s = .next (refresh (portByte b s)))

/-- O28 (R184): The identity region. -/
def Obligations.IdentityReads : Prop :=
  (∀ s : State, s.exchange 0x000 = 0x04 ∧ s.exchange 0x001 = 0x18 ∧ s.exchange 0x002 = 0x01 ∧
    (s.locked = true → s.exchange 0x003 = 1) ∧ (s.locked = false → s.exchange 0x003 = 0) ∧
    (s.locked = true ↔ s.control.station ≠ .offline)) ∧
  (∀ (s : State) (inp : Inputs), State.reset.exchange 0x003 = 0 ∧
    (∀ t, exec (.powerOn inp) s = .next t → t.exchange 0x003 = 0) ∧
    (∀ t, exec (.resetPin inp) s = .next t → t.exchange 0x003 = 0) ∧
    (∀ t, codeRefused 0x3F s = false → exec (.restart inp) s = .next t → t.exchange 0x003 = 0))

/-- O29 (R193, R204, R202, R82, R105, R136, R152, R170): The status block shows the owners' fields. -/
def Obligations.StatusBlockShows : Prop :=
  ([StationState.offline, .gathering, .member, .leaving, .isolated].map StationState.code = [0, 1, 2, 3, 4] ∧
   [Cause.start, .windowClosed, .selfLease, .sequenceGap, .unknownSender, .selfExpired, .gatherRestart, .rejoin,
     .autoRejoin, .deaf, .silent, .budget, .duplicate, .leaveStation, .leaveApplied, .leaveDropped, .inconsistent].map
     Cause.code = [1, 2, 3, 4, 5, 6, 7, 8, 9, 10, 11, 12, 13, 14, 15, 16, 17] ∧
   causeCode none = 0 ∧ (∀ c, causeCode (some c) = c.code) ∧
   (∀ b, [EngineState.idle, .loaded, .running b, .held, .faulted, .complete].map EngineState.code = [0, 1, 2, 3, 4, 5] ∧
     [EngineState.idle, .loaded, .running b, .held, .faulted, .complete].map EngineState.subCode =
       [0, 0, b.code, 0, 0, 0]) ∧
   [Substate.claiming, .waiting, .active, .regain].map Substate.code = [1, 2, 3, 4] ∧
   (∀ a g, [Holding.none, .admitted a, .waiting a g].map Holding.code = [0, 1, 2]) ∧
   (∀ h : HoldSet, h.code = (if h.host then 1 else 0) + (if h.door then 2 else 0) + (if h.tank then 4 else 0)) ∧
   [PhaseKind.fill, .preheat, .steam, .settle, .dry, .air, .cool].map PhaseKind.code = [1, 2, 3, 4, 5, 6, 7] ∧
   [Level.empty, .low, .ok, .full].map Level.code = [0, 1, 2, 3]) ∧
  (∀ s : State, s.exchange 0x090 = byteOf s.control.station.code ∧ s.exchange 0x091 = byteOf (causeCode s.control.isolation) ∧
     s.exchange 0x092 = byteOf s.control.rejoins ∧ s.exchange 0x093 = (if s.table.windowOpen then 1 else 0) ∧
     s.exchange 0x094 = byteOf s.own.code ∧
     (let amount (f : Share → Nat) : Byte := match s.own with
        | .none => 0
        | .admitted a => byteOf (f a)
        | .waiting a _ => byteOf (f a)
      s.exchange 0x095 = amount Share.power ∧ s.exchange 0x096 = amount Share.vent ∧
        s.exchange 0x097 = amount Share.fill) ∧
     s.exchange 0x098 = byteOf s.ownPosition ∧
     s.exchange 0x099 = byteOf s.engine.state.code ∧ s.exchange 0x09A = byteOf s.engine.state.subCode ∧
     s.exchange 0x09B = byteOf s.engine.holds.code ∧
     (∃ up : Bool, s.exchange 0x09C = byteOf ((s.engine.purge.left + (if up then 39999 else 0)) / 40000)) ∧
     s.exchange 0x09D = byteOf s.engine.index ∧
     s.exchange 0x09E = (if s.engine.state = .idle then 0 else byteOf s.engine.current.kind.code) ∧
     s.exchange 0x09F = byteOf s.engine.cls ∧ s.exchange 0x0A0 = (if s.engine.stale then 1 else 0) ∧
     s.exchange 0x0A1 = 0 ∧
     s.exchange 0x0A2 = byteOf (s.engine.phaseTimer / 40000 / 256) ∧ s.exchange 0x0A3 = byteOf (s.engine.phaseTimer / 40000) ∧
     s.exchange 0x0A4 = byteOf (s.engine.limitTimer / 40000 / 256) ∧ s.exchange 0x0A5 = byteOf (s.engine.limitTimer / 40000) ∧
     (s.meas.sample.air = none → s.exchange 0x0A6 = 0 ∧ s.exchange 0x0A7 = 0) ∧
     (∀ x, s.meas.sample.air = some x →
       s.exchange 0x0A6 = byteOf ((x % 65536).toNat / 256) ∧ s.exchange 0x0A7 = byteOf (x % 65536).toNat) ∧
     s.exchange 0x0A8 = byteOf (s.meas.sample.hum.getD 0) ∧
     s.exchange 0x0A9 = (if s.meas.sample.air.isSome then 1 else 0) + (if s.meas.sample.hum.isSome then 2 else 0) ∧
     s.exchange 0x0AA = byteOf s.meas.sample.reservoir.code ∧ s.exchange 0x0AB = (if s.meas.sample.tankFull then 1 else 0) ∧
     s.exchange 0x0AC = (if s.meas.doorOpen then 1 else 0) ∧ s.exchange 0x0AD = byteOf s.load.heaters ∧
     s.exchange 0x0AE = byteOf s.load.steam ∧ s.exchange 0x0AF = byteOf s.load.vent ∧
     s.exchange 0x0B0 = (if s.load.fan then 1 else 0) ∧ s.exchange 0x0B1 = (if s.load.valve then 1 else 0) ∧
     (∀ a, 0x0B2 ≤ a → a ≤ 0x0BF → s.exchange a = 0))

/-- O30 (R204, R122, R174, R185, R186, R190, R194, R195, R199, R203, R205, R182): The rest of the exchange area shows what R204 says. -/
def Obligations.ExchangeAreaShows : Prop :=
  ((∀ c a i r f, [Result.ok, .badCommand c, .busy, .notMember, .wrongState, .faultPending, .badConfig a, .badCycle i r,
      .noCycle, .conditionPresent f].map Result.code = [0, 1, 2, 3, 4, 5, 6, 7, 8, 9] ∧
     [Result.ok, .badCommand c, .busy, .notMember, .wrongState, .faultPending, .badConfig a, .badCycle i r, .noCycle,
      .conditionPresent f].map Result.detail = [(0, 0), (0, c), (0, 0), (0, 0), (0, 0), (0, 0),
        (byteOf (a / 256), byteOf a), (byteOf i, byteOf r.code), (0, 0), (0, byteOf f.code)]) ∧
   [CycleReason.count, .cls, .kind, .endCondition, .targetRange, .classTemp, .classSteam, .claimShape, .claimSize,
     .duration, .limit, .pad, .cycleLength].map CycleReason.code = [1, 2, 3, 4, 5, 6, 7, 8, 9, 10, 11, 12, 13] ∧
   [FaultCode.overTemp, .sensor, .noWater, .phaseLimit, .claimRefused].map FaultCode.code = [1, 2, 3, 4, 5] ∧
   [FaultSub.running .claiming, .running .waiting, .running .active, .running .regain, .held, .entry].map FaultSub.code =
     [1, 2, 3, 4, 5, 6] ∧
   [EndCond.time, .temp, .humid, .level].map EndCond.code = [1, 2, 3, 4] ∧
   [Counter.framesApplied, .ownApplied, .objections, .ownVoided, .arbitrationLosses, .dropsByRetries, .dropsByAttempts,
     .receptionErrors, .staleExpiries, .undefinedKinds, .disagreements, .budgetRejections, .resyncs, .gatherRestarts,
     .configRefused, .commandsDiscarded].map Counter.number = [0, 1, 2, 3, 4, 5, 6, 7, 8, 9, 10, 11, 12, 13, 14, 15] ∧
   [EventKind.stationState, .memberAdded, .memberRemoved, .ownOutcome, .grant, .grantLost, .budgetRejected,
     .standingDisagrees, .phaseStart, .phaseEnd, .cycleDone, .holdOn, .holdOff, .fault, .levelLow, .frameDropped,
     .commandDone].map EventKind.code = [1, 2, 3, 4, 5, 6, 7, 8, 9, 10, 11, 12, 13, 14, 15, 16, 17]) ∧
  (∀ s : State,
     (let hi (n : Nat) : Byte := byteOf (n / 256)
      let lo (n : Nat) : Byte := byteOf n
      let flag (f : Bool) : Byte := if f then 1 else 0
      let area (base n : Nat) : List Byte := (List.range n).map (fun i => s.exchange (base + i))
      area 0x010 14 = [s.cfg.stationId, s.cfg.rate, s.cfg.lease, s.cfg.powerBudget, s.cfg.ventBudget, s.cfg.fillBudget,
        s.cfg.heaterCount, s.cfg.heaterRating, s.cfg.steamCount, s.cfg.steamRating, s.cfg.purgeTime, s.cfg.retryLimit,
        s.cfg.attemptLimit, s.cfg.attention] ∧
      (∀ i : Fin 6, area (0x020 + 4 * i.val) 4 =
        [s.cfg.classes[i].maxTemp, s.cfg.classes[i].steam, s.cfg.classes[i].lenHi, s.cfg.classes[i].lenLo]) ∧
      area 0x080 16 = [s.port.code, byteOf s.port.result.code, s.port.result.detail.1, s.port.result.detail.2,
        s.port.param1, s.port.param2, 0, 0, 0, 0, 0, 0, 0, 0, 0, 0] ∧
      (s.fault = none → area 0x0C0 16 = List.replicate 16 0) ∧
      (∀ r, s.fault = some r →
        area 0x0C0 5 = [byteOf r.code.code, byteOf r.index, byteOf r.kind.code, byteOf r.sub.code, byteOf r.holds.code] ∧
        area 0x0C5 2 = (match r.air with
          | some x => [hi (x % 65536).toNat, lo (x % 65536).toNat]
          | none => [0, 0]) ∧
        area 0x0C7 9 = [byteOf (r.hum.getD 0), (if r.air.isSome then 1 else 0) + (if r.hum.isSome then 2 else 0),
          byteOf r.later, (match r.last with
            | some c => byteOf c.code
            | none => 0), 0, 0, 0, 0, 0]) ∧
      (∀ c : Counter, area (0x0D0 + 2 * c.number.val) 2 = [hi (s.counter c).toNat, lo (s.counter c).toNat]) ∧
      area 0x0F0 8 = [byteOf s.port.ring.nextIn.toNat, byteOf s.port.ring.nextOut.toNat, hi s.port.ring.lost.toNat,
        lo s.port.ring.lost.toNat, hi s.port.ring.firstLost.toNat, lo s.port.ring.firstLost.toNat, 0, 0] ∧
      (∀ a, 0x100 ≤ a → a ≤ 0x1FF → s.exchange a = Memory.read s.port.staging a) ∧
      (∀ i < 16, area (0x200 + 16 * i) 16 = (match s.engine.phases[i]? with
        | some p => [byteOf p.kind.code, byteOf p.stop.code, flag p.onLimitFault, byteOf p.temp, byteOf p.hum,
            byteOf p.power, byteOf p.vent, hi p.duration, lo p.duration, hi p.limit, lo p.limit, 0, 0, 0, 0, 0]
        | none => List.replicate 16 0)) ∧
      area 0x300 3 = [s.port.view.number, byteOf s.port.view.station.code, byteOf s.port.view.queue.length] ∧
      (∀ i < 15, s.exchange (0x303 + i) = byteOf (s.port.view.queue.getD i 0)) ∧
      area 0x312 6 = List.replicate 6 0 ∧
      (∀ i : Fin 15, area (0x318 + 8 * i.val) 8 = (match s.port.view.recs[i] with
        | none => List.replicate 8 0
        | some x =>
          match x.holding with
          | .none => [128, 0, 0, 0, x.seq, hi x.leaseTenths, lo x.leaseTenths, 0]
          | .admitted a => [129, byteOf a.power, byteOf a.vent, byteOf (a.fill * 128 + a.kind.code), x.seq,
              hi x.leaseTenths, lo x.leaseTenths, 0]
          | .waiting a _ => [130, byteOf a.power, byteOf a.vent, byteOf (a.fill * 128 + a.kind.code), x.seq,
              hi x.leaseTenths, lo x.leaseTenths, 0])) ∧
      (∀ i : Fin 32, area (0x400 + 8 * i.val) 8 =
        (let e := s.port.ring.entries[i]
         [hi e.seq.toNat, lo e.seq.toNat, e.kind, e.subject, e.d0, e.d1, e.d2, e.d3])) ∧
      (∀ a, (0x004 ≤ a ∧ a ≤ 0x00F) ∨ (0x01E ≤ a ∧ a ≤ 0x01F) ∨ (0x038 ≤ a ∧ a ≤ 0x07F) ∨ (0x0F8 ≤ a ∧ a ≤ 0x0FF) ∨
        (0x390 ≤ a ∧ a ≤ 0x3FF) ∨ (0x500 ≤ a ∧ a ≤ 0x7FF) → s.exchange a = 0)))

/-- O31 (R195, R196, R194, R198): An event is stored or lost and counted, a counter saturates, ATTN follows the ring. -/
def Obligations.EventsAndCounts : Prop :=
  (∀ (r : Ring) (k a d0 d1 d2 d3 : Byte), let u := r.record k a d0 d1 d2 d3
    u.seq = r.seq + 1 ∧ u.nextOut = r.nextOut ∧
    (r.unread.toNat ≠ 31 → u.nextIn = r.nextIn + 1 ∧ u.entries[r.nextIn.toNat] = ⟨r.seq, k, a, d0, d1, d2, d3⟩ ∧
      (∀ i (h : i < 32), i ≠ r.nextIn.toNat → u.entries[i] = r.entries[i]) ∧ u.lost = r.lost ∧
      u.firstLost = r.firstLost) ∧
    (r.unread.toNat = 31 → u.nextIn = r.nextIn ∧ u.entries = r.entries ∧
      u.lost.toNat = min (r.lost.toNat + 1) 65535 ∧
      u.firstLost = (if r.lost = 0 then r.seq else r.firstLost))) ∧
  (∀ (s : State) (c : Counter), ((bump c s).counter c).toNat = min ((s.counter c).toNat + 1) 65535 ∧
    KeepsCounters [c] s (bump c s)) ∧
  (∀ s : State, s.attnLow = true ↔ s.port.ring.nextIn ≠ s.port.ring.nextOut ∧ s.cfg.attention ≠ 0)

/-- O32 (R201, R67, R57, R11, R7, R200): CLAIM and STANDING payloads carry their record without loss, and the check of a frame. -/
def Obligations.PayloadsRoundTrip : Prop :=
  (∀ a : Share, a.power ≤ 63 → a.vent ≤ 31 → a.fill ≤ 1 →
     (Payload.ofRequest a).request? = some a ∧
     (∀ (p v f : Byte) (h : Holding) (pos : Nat), h = .none ∨ h = .admitted a ∨ (h = .waiting a none ∧ 1 ≤ pos ∧ pos ≤ 15) →
       let w := Payload.ofStanding p v f (StandingFields.ofHolding h pos)
       w.standingFields = StandingFields.ofHolding h pos ∧ w.standingFields.malformed = false ∧
       w.p0 = p ∧ w.p1 = v ∧ w.p2 = f)) ∧
  (crc (([0x31, 0x32, 0x33, 0x34, 0x35, 0x36, 0x37, 0x38, 0x39] : List Byte).flatMap bitsOf) = 0x29B1 ∧
   (∀ f : Frame, f.dataBits.length = 80) ∧
   (∀ (k : FrameKind) (sender : BitVec 4) (q : Byte) (p : Payload),
     (Reading.clean k.code sender q p).finding k.code = false))

/-- O33 (R30, R22, R25, R26, R27, R28, R23): What the outgoing list offers, and what a posting does. -/
def Obligations.ListOffersAndPostings : Prop :=
  (∀ (o : OutList) (w : Bool),
     let sendable (id : SlotId) : Prop :=
       (o.slot id).entry.isSome = true ∧ o.flight ≠ some id ∧ (w = true → id = .rollcall ∨ id = .standing)
     slotOrder = (List.range 15).map (fun i => SlotId.expire (i + 1)) ++ [.leave, .intent, .rollcall, .standing] ∧
     (∀ id, o.offer w = some id → sendable id ∧
       ∃ before after, slotOrder = before ++ id :: after ∧ ∀ j ∈ before, ¬ sendable j) ∧
     (o.offer w = none → ∀ id ∈ slotOrder, ¬ sendable id)) ∧
  (∀ (s : State) (id : SlotId) (c : Content), (∀ x, id ≠ .expire x) →
     (s.control.station.takesPart = false → post id c s = s) ∧
     (s.control.station.takesPart = true →
       (∀ j, j ≠ id → (post id c s).out.slot j = s.out.slot j) ∧ (post id c s).out.flight = s.out.flight ∧
       (s.out.flight ≠ some id → ((post id c s).out.slot id).entry = some ⟨c, 0, 0⟩) ∧
       (s.out.flight = some id → (post id c s).out.slot id = { s.out.slot id with deferred := some c })) ∧
     (∀ target q, (s.out.slot (.expire target)).entry.isSome = true → postExpire target q s = s))

/-- O34 (R4, R5, R6, R8, R24, R26, R30): At an idle the offered entry begins its frame, or a peer's start is deferred to. An IDLE row that finds the interface in IDLE is the model's reading (log 13), and so are the RECEIVING of a deferral and an IDLE row without effect there (log 28). -/
def Obligations.IdleOffers : Prop :=
  ∀ (s : State) (deferred : Bool),
    let same (t : State) : Prop := t.out = s.out ∧ t.table = s.table ∧ t.control = s.control ∧ t.port = s.port ∧
      KeepsCabinet s t ∧ KeepsBase s t ∧ LoadsFollow s t
    let idle : Line := { s.line with state := .idle, recessive := 5, phase := 0, rx := [] }
    (s.line.state = .waitIdle ∨ s.line.state = .idle → ¬ (s.table.windowOpen = true ∧ s.table.windowTimer = .runOut) →
      (deferred = true → ∃ t, exec (.idle deferred) s = .next t ∧
        t.line = { s.line with state := .receiving, recessive := 0, phase := 0, rx := [] } ∧ same t) ∧
      (deferred = false → s.out.offer s.table.windowOpen = none ∨ s.control.station.takesPart = false →
        ∃ t, exec (.idle deferred) s = .next t ∧ t.line = idle ∧ same t) ∧
      (∀ id e, deferred = false → s.out.offer s.table.windowOpen = some id → (s.out.slot id).entry = some e →
        s.control.station.takesPart = true →
        let frame : Frame := ⟨e.content.kind, BitVec.ofNat 4 s.line.id.toNat, s.out.seq, s.payloadOf e.content⟩
        ∃ t, exec (.idle deferred) s = .next t ∧ t.line = { idle with state := .sending, tx := some frame } ∧
          t.out = { s.out with flight := some id } ∧ t.table = s.table ∧ t.control = s.control ∧ t.port = s.port ∧
          KeepsCabinet s t ∧ KeepsBase s t ∧ LoadsFollow s t)) ∧
    (s.line.state = .receiving ∨ s.line.state = .sending ∨ s.line.state = .detached →
      ∃ t, exec (.idle deferred) s = .next t ∧ t.line = s.line ∧ same t)

/-- O35 (R61, R62, R92, R93, R106, R49, R50, R30): The close of the window: what it does in every state, and how it makes a gathering station MEMBER. The case of an interface that is IDLE already, a later bit boundary of an idle line, is the model's reading (log 13). -/
def Obligations.WindowCloseEndsGathering : Prop :=
  (∀ s : State, s.line.state = .waitIdle ∨ s.line.state = .idle → s.table.windowOpen = true →
     s.table.windowTimer = .runOut → s.control.station = .gathering →
     (s.control.answered = false → ∃ t, exec (.idle true) s = .next t ∧ t.line.state = .receiving ∧ t.table.windowOpen = false ∧
       t.table.windowTimer = .stopped ∧ t.table.recs = s.table.recs ∧ t.table.queue = s.table.queue ∧
       t.control = s.control ∧ t.out = s.out ∧ t.port = s.port ∧ KeepsCabinet s t ∧ KeepsBase s t) ∧
     (s.control.answered = true → s.table.renewal ≠ .runOut → s.table.selfLease ≠ .runOut →
       s.control.awaited = none → s.engine.state ≠ .running .regain →
       ∃ t, exec (.idle true) s = .next t ∧ t.line.state = .receiving ∧ t.table.windowOpen = false ∧ t.table.windowTimer = .stopped ∧
         t.table.queue = s.table.queue ∧
         (∀ id, t.table.holding id = (s.table.holding id).dropGathered) ∧
         t.control = { s.control with
           station := .member, answered := false, memberTimer := .running s.cfg.leaseTicks } ∧
         t.out = s.out ∧ t.port.ring = s.port.ring.after .stationState s.ownId 1 2 2 0 ∧
         t.port.counters = s.port.counters ∧ KeepsPort s t ∧ KeepsCabinet s t ∧ KeepsBase s t ∧ LoadsFollow s t)) ∧
  (∀ (s : State) (deferred : Bool), s.line.state = .waitIdle ∨ s.line.state = .idle → s.table.windowOpen = true →
    s.table.windowTimer = .runOut →
    let closed : Table := { s.table with windowOpen := false, windowTimer := .stopped }
    (s.control.station ≠ .gathering ∨ s.control.answered = false →
      exec (.idle deferred) s = exec (.idle deferred) (s.setTable closed)) ∧
    (s.control.station = .gathering → s.control.answered = true → ∃ m : State,
      m.table = { closed with recs := m.table.recs } ∧
      (∀ id, m.table.rec? id = (s.table.rec? id).map (fun x => { x with holding := x.holding.dropGathered })) ∧
      m.control = { s.control with
        station := .member, answered := false, memberTimer := .running s.cfg.leaseTicks,
        awaited := match s.control.awaited with
          | some .leaveStation => some .leaveStation
          | _ => none } ∧
      m.out = (if s.table.renewal = .runOut then s.out.post .standing .standing else s.out) ∧
      m.line = { s.line with state := .idle, recessive := 5, phase := 0, rx := [] } ∧
      (let entered := s.port.ring.after .stationState s.ownId 1 2 2 0
       m.port = { s.port with
         ring := match s.control.awaited with
           | some .startStation => entered.after .commandDone s.ownId 0x01 2 2 0
           | some .rejoin => entered.after .commandDone s.ownId 0x03 2 2 0
           | _ => entered }) ∧
      m.load = s.load ∧ KeepsCabinet s m ∧ KeepsBase s m ∧
      (s.table.selfLease = .runOut → exec (.idle deferred) s = exec (.idle deferred) (resync .selfLease m)) ∧
      (s.table.selfLease ≠ .runOut → s.engine.state = .running .regain →
        exec (.idle deferred) s = exec (.idle deferred) (entryTests (some .regain) m)) ∧
      (s.table.selfLease ≠ .runOut → s.engine.state ≠ .running .regain →
        exec (.idle deferred) s = exec (.idle deferred) m)))

/-- O36 (R5, R6, R16, R20): FALSE_START and ABANDONED_FRAME count a reception error. That a deferred start can still turn out false and that a frame heard from IDLE counts as one being received are the model's choices (log 28). -/
def Obligations.FalseStartsAndAbandonedFrames : Prop :=
  ∀ s : State,
    (s.line.state = .idle ∨ (s.line.state = .receiving ∧ s.line.rx = []) → ∃ t, exec .falseStart s = .next t ∧
      t.line = { s.line with state := .waitIdle, recessive := 0, phase := 0 } ∧ t.out = s.out ∧ t.table = s.table ∧
      t.control = s.control ∧ t.counter .receptionErrors = satInc (s.counter .receptionErrors) ∧
      KeepsCounters [.receptionErrors] s t ∧ t.port.ring = s.port.ring ∧ KeepsPort s t ∧ KeepsCabinet s t ∧
      KeepsBase s t ∧ LoadsFollow s t) ∧
    (∀ deferred, s.line.state = .receiving ∨ s.line.state = .idle →
      ¬ (s.table.windowOpen = true ∧ s.table.windowTimer = .runOut) →
      deferred = true ∨ s.out.offer s.table.windowOpen = none ∨ s.control.station.takesPart = false →
      ∃ t, exec (.abandonedFrame deferred) s = .next t ∧
        t.line = (if deferred then { s.line with state := .receiving, recessive := 0, phase := 0, rx := [] }
          else { s.line with state := .idle, recessive := 5, phase := 0, rx := [] }) ∧ t.out = s.out ∧
        t.table = s.table ∧ t.control = s.control ∧
        t.counter .receptionErrors = satInc (s.counter .receptionErrors) ∧ KeepsCounters [.receptionErrors] s t ∧
        t.port.ring = s.port.ring ∧ KeepsPort s t ∧ KeepsCabinet s t ∧ KeepsBase s t ∧ LoadsFollow s t)

/-- O37 (R9, R33, R25, R32, R34, R49): A lost arbitration counts one attempt; a MEMBER's STANDING over its retry limit is dropped and posted again. -/
def Obligations.AttemptsAndDrops : Prop :=
  (∀ (s : State) (bit : Nat) (f : Frame) (id : SlotId) (e : Entry) (d : Option Content),
     s.line.state = .sending → s.line.tx = some f → f.dataBits[bit]? = some true → s.out.flight = some id →
     s.out.slot id = ⟨some e, d⟩ → (d = none → e.attempts < s.cfg.attemptLimit.toNat) →
     ∃ t, exec (.arbitrationLost bit) s = .next t ∧
       t.line = { s.line with
         state := .receiving, recessive := 0, phase := 0, tx := none, rx := f.dataBits.take bit ++ [false] } ∧
       t.out.slot id = (match d with
         | none => ⟨some { e with attempts := e.attempts + 1 }, none⟩
         | some c => ⟨some ⟨c, 0, 0⟩, none⟩) ∧
       (∀ j, j ≠ id → t.out.slot j = s.out.slot j) ∧ t.out.flight = none ∧ t.out.seq = s.out.seq ∧
       t.out.drops = s.out.drops ∧ t.table = s.table ∧ t.control = s.control ∧
       t.counter .arbitrationLosses = satInc (s.counter .arbitrationLosses) ∧
       KeepsCounters [.arbitrationLosses] s t ∧ t.port.ring = s.port.ring ∧ KeepsPort s t ∧ KeepsCabinet s t ∧
       KeepsBase s t ∧ LoadsFollow s t) ∧
  (∀ (s : State) (e : Entry), s.control.station = .member → s.out.flight = some .standing →
     s.out.standing = ⟨some e, none⟩ → e.content = .standing → e.voids = s.cfg.retryLimit.toNat → s.out.drops < 2 →
     let t := listFailed 1 s
     t.out = { s.out with standing := ⟨some ⟨.standing, 0, 0⟩, none⟩, flight := none, drops := s.out.drops + 1 } ∧
     t.port.ring = s.port.ring.after .frameDropped s.ownId 6 1 e.attempts (e.voids + 1) ∧
     t.counter .dropsByRetries = satInc (s.counter .dropsByRetries) ∧ KeepsCounters [.dropsByRetries] s t ∧
     t.control = s.control ∧ t.table = s.table ∧ t.line = s.line ∧ t.engine = s.engine)

/-- O38 (R9, R10, R12, R14, R32, R33, R34, R35, R48, R91, R99, R126): Own frames that fail: void, drive fault, a finding in the slot and lost arbitration at the row, and retries, drops of every kind and SILENT in the list. That a frame row brings what the sender read back, and that its first difference decides, is the model's choice (log 12). -/
def Obligations.OwnFailures : Prop :=
  (∀ (s : State) (f : Frame) (r : Reading) (bit : Nat), s.line.state = .sending → s.line.tx = some f →
     (ReadsBack f r s → exec (.voidFrame f.kind.code r) s = .next (refresh (listFailed 1 (bump .ownVoided
       (s.setLine (s.line.frameEnded (if r.slot1Dominant then .echoed else .none))))))) ∧
     (∀ (kind : BitVec 4) (row : Instr), (kind, row) ∈ [((1 : BitVec 4), Instr.expire r), (2, .leave r), (3, .release r),
         (4, .claim r), (5, .rollcall r), (6, .standing r), (kind, .undefinedKindFrame kind r), (kind, .voidFrame kind r)] →
       (r.startFault = false →
         (∃ n, n < 80 ∧ f.dataBits.take n = (r.dataBits kind).take n ∧ (∀ k, r.markFaultAt = some k → n < k) ∧
           f.dataBits[n]? = some true ∧ (r.dataBits kind)[n]? = some false) →
         exec row s = exec row (listFailed 2 (bump .arbitrationLosses (s.setLine { s.line with
           state := .receiving, recessive := 0, phase := 0, tx := none, rx := [] })))) ∧
       (s.control.station.takesPart = true → s.control.run < 15 →
       r.startFault = true ∨ (∃ n, n < 80 ∧ f.dataBits.take n = (r.dataBits kind).take n ∧ (r.markFaultAt = some n ∨
         ((∀ k, r.markFaultAt = some k → n < k) ∧ f.dataBits[n]? = some false ∧ (r.dataBits kind)[n]? = some true))) →
       exec row s = .next (refresh (listFailed 1 (bump .ownVoided ((bump .objections
         (s.setLine (s.line.frameEnded .objected))).setControl { s.control with run := s.control.run + 1 })))))) ∧
     (∀ row, (f.kind.code, row) ∈ [((1 : BitVec 4), Instr.expire r), (2, .leave r), (3, .release r), (4, .claim r),
         (5, .rollcall r), (6, .standing r), (f.kind.code, .voidFrame f.kind.code r)] →
       s.control.station.takesPart = true →
       r = { Reading.clean f.kind.code f.sender f.seq f.payload with
         slot1Fault := r.slot1Fault, slot1Dominant := r.slot1Dominant, slot2Fault := r.slot2Fault } →
       (r.slot1Fault = true → s.control.run < 15 → exec row s = .next (refresh (listFailed 1 (bump .ownVoided ((bump .objections
         (s.setLine (s.line.frameEnded .objectedSecond))).setControl { s.control with run := s.control.run + 1 }))))) ∧
       (r.slot1Fault = false → r.slot2Fault = true → exec row s = .next (refresh (listFailed 1 (bump .ownVoided
         (s.setLine (s.line.frameEnded (if r.slot1Dominant then .echoed else .none)))))))) ∧
     (f.dataBits[bit]? = some true → exec (.arbitrationLost bit) s = .next (refresh (listFailed 2 (bump .arbitrationLosses
       (s.setLine { s.line with
         state := .receiving, recessive := 0, phase := 0, tx := none, rx := f.dataBits.take bit ++ [false] })))))) ∧
  (∀ (s : State) (id : SlotId) (e : Entry) (cause : Nat), s.out.flight = some id → cause = 1 ∨ cause = 2 →
     let e1 : Entry := if cause = 1 then { e with voids := e.voids + 1 } else { e with attempts := e.attempts + 1 }
     let exceeded : Prop := if cause = 1 then s.cfg.retryLimit.toNat < e1.voids else s.cfg.attemptLimit.toNat < e1.attempts
     (∀ c, (s.out.slot id).deferred = some c →
       listFailed cause s = s.setOut { s.out.setSlot id ⟨some ⟨c, 0, 0⟩, none⟩ with flight := none }) ∧
     (s.out.slot id = ⟨some e, none⟩ → ¬ exceeded →
       listFailed cause s = s.setOut { s.out.setSlot id ⟨some e1, none⟩ with flight := none }) ∧
     (s.out.slot id = ⟨some e, none⟩ → exceeded →
       id = (match e.content with
         | .expire x _ => .expire x
         | .leave => .leave
         | .claim _ => .intent
         | .release => .intent
         | .rollcall _ _ _ => .rollcall
         | .standing => .standing) →
       id ≠ .expire s.ownId →
       let t := listFailed cause s
       let dropped : OutList := { s.out.setSlot id ⟨none, none⟩ with flight := none, drops := s.out.drops + 1 }
       let again (c : Content) : OutList := dropped.setSlot id ⟨some ⟨c, 0, 0⟩, none⟩
       let counted : Counter := if cause = 1 then .dropsByRetries else .dropsByAttempts
       let ring := s.port.ring.after .frameDropped
         (match e.content with
           | .expire x _ => x
           | _ => s.ownId) e.content.kind.code.toNat cause e1.attempts e1.voids
       t.counter counted = satInc (s.counter counted) ∧ KeepsCounters [counted] s t ∧ KeepsBase s t ∧ KeepsPort s t ∧
       t.meas = s.meas ∧ t.fault = s.fault ∧
       (s.out.drops ≠ 2 → ¬ (e.content = .leave ∧ s.control.station = .leaving) →
         t.port.ring = ring ∧ t.control = s.control ∧ t.table = s.table ∧ t.line = s.line ∧ t.engine = s.engine ∧
         t.out = (match e.content with
           | .claim a => if s.control.station = .member then again (.claim a) else dropped
           | .release => if s.control.station = .member then again .release else dropped
           | .standing => if s.control.station = .member then again .standing else dropped
           | .rollcall _ _ _ =>
             if s.control.station = .gathering then
               again (.rollcall s.cfg.powerBudget s.cfg.ventBudget s.cfg.fillBudget)
             else dropped
           | .leave => dropped
           | .expire x _ =>
             match s.table.rec? x with
             | some p => if p.lease = .runOut ∧ s.control.station.takesPart then again (.expire x p.seq) else dropped
             | none => dropped)) ∧
       (e.content = .leave → s.control.station = .leaving → s.own = .none → s.control.awaited = some .leaveStation →
         t.control = ⟨.offline, none, 0, 0, .stopped, .stopped, false, none⟩ ∧ t.line.state = .detached ∧
         t.out = { s.out.emptied with drops := 0 } ∧ t.table = s.table.clearAll ∧
         t.port.ring = (ring.after .stationState s.ownId 3 0 16 0).after .commandDone s.ownId 2 0 16 0) ∧
       (s.out.drops = 2 → s.control.station = .gathering ∨ s.control.station = .member → EntersIsolated .silent s t) ∧
       (s.out.drops = 2 → s.control.station = .leaving → e.content ≠ .leave →
         t.control.station = .offline ∧ t.line.state = .detached ∧ t.out = { s.out.emptied with drops := 0 } ∧
         t.table = s.table.clearAll)))

/-- O39 (R42, R43, R44, R45, R52, R57, R58, R59, R60, R201): A heard frame that does not belong in the copy makes its finding. That power above 63 or a fill flag above 1 is malformed with NONE too is the model's reading of R201 beside R57 (log 39). -/
def Obligations.HeardFramesAreTested : Prop :=
  ∀ (s : State) (r : Reading), Hearing s →
    let u := s.afterHearing r
    let id := r.sender.toNat
    let c := r.payload.standingFields
    let renewed := withdraw id (u.setTable (s.table.renew id r.seq s.cfg.leaseTicks))
    let equal : Prop := r.payload.p0 = s.cfg.powerBudget ∧ r.payload.p1 = s.cfg.ventBudget ∧ r.payload.p2 = s.cfg.fillBudget
    let malformed : Prop := c.standing = 3 ∨ (c.standing = 2 ∧ c.position = 0) ∨ 63 < c.power ∨ 1 < c.fill ∨
      (c.standing ≠ 0 ∧ c.kind = 0)
    (∀ (k : FrameKind) (row : Instr), (k, row) ∈ [(FrameKind.expire, Instr.expire r), (.leave, .leave r),
        (.release, .release r), (.claim, .claim r), (.rollcall, .rollcall r), (.standing, .standing r)] →
      r.finding k.code = false →
      (id = s.ownId → exec row s = .next (refresh (onFinding .duplicate u))) ∧
      (id ≠ s.ownId → id = 0 → exec row s = .next (refresh u)) ∧
      (id ≠ s.ownId → id ≠ 0 → s.table.rec? id = none → k ≠ .rollcall → k ≠ .standing →
        exec row s = .next (refresh (onFinding .unknownSender u))) ∧
      (∀ p, id ≠ s.ownId → id ≠ 0 → s.table.rec? id = some p → k ≠ .rollcall → r.seq ≠ p.seq + 1 →
        exec row s = .next (refresh (onFinding .sequenceGap u)))) ∧
    (∀ own, FromPeer .expire r s → r.payload.p0.toNat = s.ownId → s.table.rec? s.ownId = some own →
      own.seq = r.payload.p1 →
      exec (.expire r) s = .next (refresh (onFinding .selfExpired (withdraw s.ownId renewed)))) ∧
    (r.finding FrameKind.standing.code = false → id ≠ 0 → id ≠ s.ownId →
      (s.table.rec? id = none → ¬ equal → s.control.station = .gathering →
        exec (.standing r) s = .next (refresh (onFinding .budget u))) ∧
      (∀ p, s.table.rec? id = some p → r.seq = p.seq + 1 → ¬ equal → s.control.station = .gathering →
        exec (.standing r) s = .next (refresh (onFinding .budget renewed))) ∧
      (s.table.rec? id = none → equal → c.standing ≠ 0 ∨ malformed → s.control.station ≠ .gathering →
        exec (.standing r) s = .next (refresh (onFinding .unknownSender u))) ∧
      (s.table.rec? id = none → equal → s.control.station = .gathering →
        malformed ∨ (c.standing = 1 ∧ ∀ k, s.table.fits s.cfg ⟨c.power, c.vent, c.fill, k⟩ = false) →
        exec (.standing r) s = .next (refresh (onFinding .inconsistent u)))) ∧
    (∀ v : State,
      (∀ f, f = .unknownSender ∨ f = .sequenceGap ∨ f = .selfExpired → v.control.station = .member →
        onFinding f v = resync f v) ∧
      (∀ f, f ≠ .duplicate → f ≠ .budget → v.control.station = .gathering → onFinding f v = restartGathering f v) ∧
      (v.control.station = .member ∨ v.control.station = .gathering → onFinding .duplicate v = isolate .duplicate v) ∧
      (v.control.station = .gathering → onFinding .budget v = isolate .budget v) ∧
      (∀ f, v.control.station = .leaving → onFinding f v = v))

/-- O40 (R90, R94, R95, R99, R97, R98, R103, R40, R36, R39): What a resync, a restart of gathering, an isolation and the sixteenth objection in a row do, and what clearing and emptying are. -/
def Obligations.ResyncRestartIsolate : Prop :=
  (∀ (s : State) (c : Cause),
     (s.control.station = .member → EntersGathering c 0 s.out.emptied s (refresh (resync c s)) ∧
       (resync c s).counter .resyncs = satInc (s.counter .resyncs) ∧ KeepsCounters [.resyncs] s (resync c s) ∧
       (resync c s).control = { s.control with station := .gathering, answered := false, memberTimer := .stopped }) ∧
     (s.control.station = .gathering → EntersGathering .gatherRestart c.code s.out.withdrawAll s (refresh (restartGathering c s)) ∧
       (restartGathering c s).counter .gatherRestarts = satInc (s.counter .gatherRestarts) ∧
       KeepsCounters [.gatherRestarts] s (restartGathering c s) ∧
       (restartGathering c s).control = { s.control with station := .gathering, answered := false }) ∧
     (s.control.station = .gathering ∨ s.control.station = .member →
       EntersIsolated c s (isolate c s) ∧ (isolate c s).line = s.line ∧
       (isolate c s).port.counters = s.port.counters ∧
       (isolate c s).port.ring = (match s.control.awaited with
         | some .startStation => (s.ringMoved .isolated c s.control.rejoins).after .commandDone s.ownId 1 4 c.code 0
         | some .rejoin => (s.ringMoved .isolated c s.control.rejoins).after .commandDone s.ownId 3 4 c.code 0
         | some .leaveStation => s.ringMoved .isolated c s.control.rejoins
         | none => s.ringMoved .isolated c s.control.rejoins))) ∧
  (∀ s : State,
     (s.control.station = .gathering ∨ s.control.station = .member → s.control.run = 15 →
       EntersIsolated .deaf s (reportObjection s)) ∧
     (s.control.station = .leaving → s.control.run = 15 → (reportObjection s).control.station = .offline ∧
       (reportObjection s).line.state = .detached ∧ (reportObjection s).table = s.table.clearAll ∧
       (reportObjection s).out = { s.out.emptied with drops := 0 } ∧ (reportObjection s).locked = false ∧
       (reportObjection s).cfg = s.cfg ∧ (reportObjection s).out.seq = s.out.seq) ∧
     (s.control.station.takesPart = true → s.control.run < 15 →
       reportObjection s = s.setControl { s.control with run := s.control.run + 1 }) ∧
     (s.control.station.takesPart = false → reportObjection s = s)) ∧
  (∀ (t : Table) (id : Nat),
     (t.clear id).rec? id = (t.rec? id).map (fun x => { x with holding := .none, lease := .stopped }) ∧
     (∀ j, j ≠ id → (t.clear id).rec? j = none) ∧
     t.clear id = { t with recs := (t.clear id).recs, queue := [], windowOpen := false, windowTimer := .stopped } ∧
     (∀ j, t.clearAll.rec? j = none) ∧
     t.clearAll = { t with
       recs := t.clearAll.recs, queue := [], windowOpen := false, windowTimer := .stopped, renewal := .stopped,
       selfLease := .stopped }) ∧
  (∀ o : OutList,
     (∀ id, o.emptied.slot id = ⟨none, none⟩) ∧ o.emptied.flight = none ∧ o.emptied.seq = o.seq ∧
     o.emptied.drops = o.drops ∧
     (∀ x, o.withdrawAll.slot (.expire x) = if o.flight = some (.expire x) then o.slot (.expire x) else ⟨none, none⟩) ∧
     (∀ id, (∀ x, id ≠ .expire x) → o.withdrawAll.slot id = o.slot id) ∧ o.withdrawAll.flight = o.flight ∧
     o.withdrawAll.seq = o.seq ∧ o.withdrawAll.drops = o.drops)

/-- O41 (R45, R51, R53, R29, R54, R73, R76, R77): An EXPIRE, a LEAVE and a RELEASE of a peer. -/
def Obligations.ExpireRemoves : Prop :=
  (∀ (s : State) (r : Reading), Hearing s → FromPeer .expire r s →
    let id := r.sender.toNat
    let target := r.payload.p0.toNat
    let renewed := s.table.renew id r.seq s.cfg.leaseTicks
    (∀ p, OwnNotWaiting s → renewed.rec? target = some p → p.seq = r.payload.p1 → target ≠ s.ownId →
      ∃ t, exec (.expire r) s = .next t ∧ HeardFrame r s t ∧ t.table = (renewed.remove target).scan s.cfg ∧
        KeepsEngineAndList [id, target] s t ∧ t.port.ring = s.port.ring.after .memberRemoved target 1 0 0 0 ∧
        KeepsCounters [.framesApplied] s t ∧ LoadsFollow s t) ∧
    ((∀ p, renewed.rec? target = some p → p.seq ≠ r.payload.p1) →
      ((s.out.withdraw id).expirePending target = false) →
      ∃ t, exec (.expire r) s = .next t ∧ HeardFrame r s t ∧ t.table = renewed ∧
        KeepsEngineAndList [id, target] s t ∧ t.port.ring = s.port.ring ∧
        t.counter .staleExpiries = satInc (s.counter .staleExpiries) ∧
        KeepsCounters [.framesApplied, .staleExpiries] s t ∧ LoadsFollow s t) ∧
    ((∀ p, renewed.rec? target = some p → p.seq ≠ r.payload.p1) → (s.out.withdraw id).expirePending target = true →
      target ≠ s.ownId →
      let withdrawn := (s.out.withdraw id).withdraw target
      ∃ t, exec (.expire r) s = .next t ∧ HeardFrame r s t ∧ t.table = renewed ∧ t.engine = s.engine ∧
        t.fault = s.fault ∧ t.port.ring = s.port.ring ∧ t.counter .staleExpiries = satInc (s.counter .staleExpiries) ∧
        KeepsCounters [.framesApplied, .staleExpiries] s t ∧ LoadsFollow s t ∧
        (withdrawn.slot (.expire target)).entry = none ∧
        (∀ p, renewed.rec? target = some p → p.lease = .runOut →
          t.out = withdrawn.post (.expire target) (.expire target p.seq)) ∧
        ((∀ p, renewed.rec? target = some p → p.lease ≠ .runOut) → t.out = withdrawn))) ∧
  (∀ (s : State) (r : Reading), Hearing s → OwnNotWaiting s →
    let id := r.sender.toNat
    let renewed := s.table.renew id r.seq s.cfg.leaseTicks
    (FromPeer .leave r s → ∃ t, exec (.leave r) s = .next t ∧ HeardFrame r s t ∧
      t.table = (renewed.remove id).scan s.cfg ∧ KeepsEngineAndList [id] s t ∧
      t.port.ring = s.port.ring.after .memberRemoved id 2 0 0 0 ∧ KeepsCounters [.framesApplied] s t ∧
      LoadsFollow s t) ∧
    (FromPeer .release r s → ∃ t, exec (.release r) s = .next t ∧ HeardFrame r s t ∧
      t.table = (renewed.giveUp id).scan s.cfg ∧ KeepsEngineAndList [id] s t ∧ t.port.ring = s.port.ring ∧
      KeepsCounters [.framesApplied] s t ∧ LoadsFollow s t))

/-- O42 (R67, R68, R69, R70, R71, R72): A CLAIM of a peer is settled as zero, refused, step-down or newcomer. -/
def Obligations.ClaimsAreSettled : Prop :=
  ∀ (s : State) (r : Reading), Hearing s → OwnNotWaiting s → FromPeer .claim r s →
    let id := r.sender.toNat
    let renewed := s.table.renew id r.seq s.cfg.leaseTicks
    let given := renewed.giveUp id
    let zero : Prop := r.payload.p0 = 0 ∧ r.payload.p1 = 0 ∧ r.payload.p2 = 0
    let malformed : Prop := 63 < r.payload.p0.toNat ∨ 31 < r.payload.p1.toNat ∨ 1 < r.payload.p2.toNat ∨
      r.payload.p3.toNat < 1 ∨ 7 < r.payload.p3.toNat
    ∃ t u, exec (.claim r) s = .next t ∧ HeardFrame r s t ∧ t.table = u.scan s.cfg ∧ KeepsEngineAndList [id] s t ∧
      t.port.ring = s.port.ring ∧ KeepsCounters [.framesApplied] s t ∧ LoadsFollow s t ∧
      (zero ∨ malformed → u = given) ∧
      (∀ a : Share, ¬ zero → ¬ malformed → a.power = r.payload.p0.toNat → a.vent = r.payload.p1.toNat →
        a.fill = r.payload.p2.toNat → a.kind.code = r.payload.p3.toNat →
        (s.cfg.powerBudget.toNat < a.power ∨ s.cfg.ventBudget.toNat < a.vent ∨ s.cfg.fillBudget.toNat < a.fill → u = given) ∧
        (a.power ≤ s.cfg.powerBudget.toNat → a.vent ≤ s.cfg.ventBudget.toNat → a.fill ≤ s.cfg.fillBudget.toNat →
          (∀ b, s.table.holding id = .admitted b → a.power ≤ b.power → a.vent ≤ b.vent → a.fill ≤ b.fill →
            u = renewed.setHolding id (.admitted a)) ∧
          (¬ (∃ b, s.table.holding id = .admitted b ∧ a.power ≤ b.power ∧ a.vent ≤ b.vent ∧ a.fill ≤ b.fill) →
            (given.queue = [] → given.fits s.cfg a = true → u = given.setHolding id (.admitted a)) ∧
            (given.queue ≠ [] ∨ given.fits s.cfg a = false →
              u = { given.setHolding id (.waiting a none) with queue := given.queue ++ [id] }))))

/-- O43 (R80, R84, R131, R77, R51, R54, R55, R71, R73, R53): A heard frame whose scan admits the waiting own record gives GRANT and ADMITTED. -/
def Obligations.HeardFrameAdmitsOwn : Prop :=
  ∀ (s : State) (r : Reading) (row : Instr) (after : Table) (ring : Ring) (out : OutList), Hearing s → s.own.isWaiting = true →
    let id := r.sender.toNat
    let target := r.payload.p0.toNat
    let renewed := s.table.renew id r.seq s.cfg.leaseTicks
    (row = .release r ∧ FromPeer .release r s ∧ after = (renewed.giveUp id).scan s.cfg ∧ ring = s.port.ring ∧
        out = s.out.withdraw id) ∨
      (row = .leave r ∧ FromPeer .leave r s ∧ after = (renewed.remove id).scan s.cfg ∧
        ring = s.port.ring.after .memberRemoved id 2 0 0 0 ∧ out = s.out.withdraw id) ∨
      (row = .claim r ∧ FromPeer .claim r s ∧ after = (renewed.claim s.cfg id r.payload).scan s.cfg ∧
        ring = s.port.ring ∧ out = s.out.withdraw id) ∨
      (row = .expire r ∧ FromPeer .expire r s ∧ target ≠ s.ownId ∧
        (∃ p, renewed.rec? target = some p ∧ p.seq = r.payload.p1) ∧ after = (renewed.remove target).scan s.cfg ∧
        ring = s.port.ring.after .memberRemoved target 1 0 0 0 ∧ out = (s.out.withdraw id).withdraw target) ∨
      (row = .rollcall r ∧ r.finding FrameKind.rollcall.code = false ∧ id ≠ 0 ∧ id ≠ s.ownId ∧
        (∃ p, s.table.rec? id = some p) ∧
        (r.payload.p0 = s.cfg.powerBudget ∧ r.payload.p1 = s.cfg.ventBudget ∧ r.payload.p2 = s.cfg.fillBudget) ∧
        after = { (renewed.giveUp id).scan s.cfg with
          windowOpen := true, windowTimer := .running (2112 * bitTicks s.line.rate) } ∧ ring = s.port.ring ∧
        out = (if s.control.station = .member then (s.out.withdraw id).post .standing .standing else s.out.withdraw id)) →
    ∃ t, exec row s = .next t ∧ HeardFrame r s t ∧ t.table = after ∧ KeepsCounters [.framesApplied] s t ∧
      LoadsFollow s t ∧ t.fault = s.fault ∧
      (∀ b, after.holding s.ownId = .admitted b → s.control.station = .member →
        let req := s.engine.current.request
        let covered : Prop := req.power ≤ b.power ∧ req.vent ≤ b.vent ∧ req.fill ≤ b.fill
        t.port.ring = ring.after .grant s.ownId b.power b.vent b.fill b.kind.code ∧
        (s.engine.state = .running .claiming ∨ s.engine.state = .running .waiting → covered →
          t.engine = { s.engine with state := .running .active } ∧ t.out = out) ∧
        (s.engine.state = .running .claiming → ¬ covered → t.engine = s.engine ∧ t.out = out) ∧
        (s.engine.state = .running .waiting → ¬ covered →
          t.engine = { s.engine with state := .running .claiming } ∧ t.out = out.post .intent (.claim req)) ∧
        (s.engine.state = .running .regain ∨ s.engine.state.underWay = false ∨
            (s.engine.state = .held ∧ s.engine.purge.isRunning = false) → t.engine = s.engine ∧ t.out = out)) ∧
      ((after.holding s.ownId).isWaiting = true ∨ s.control.station ≠ .member →
        t.port.ring = ring ∧ t.engine = s.engine ∧ t.out = out)

/-- O44 (R41, R45, R65, R66, R73, R76): What renewing, giving up, removing, fitting and the admission scan do to the table. -/
def Obligations.ScanAndPools : Prop :=
  ∀ (t : Table) (id : Nat) (c : Settings), 1 ≤ id → id ≤ 15 →
    (∀ (q : Byte) (n : Nat),
      (t.renew id q n).rec? id = (t.rec? id).map (fun r => { r with seq := q, lease := .running n }) ∧
      (∀ j, j ≠ id → (t.renew id q n).rec? j = t.rec? j) ∧ (t.renew id q n).queue = t.queue ∧
      t.renew id q n = { t with recs := (t.renew id q n).recs }) ∧
    ((t.giveUp id).rec? id = (t.rec? id).map (fun r => { r with holding := .none }) ∧
      (∀ j, j ≠ id → (t.giveUp id).rec? j = t.rec? j) ∧ (t.giveUp id).queue = t.queue.filter (fun x => x != id) ∧
      t.giveUp id = { t with recs := (t.giveUp id).recs, queue := (t.giveUp id).queue }) ∧
    ((t.remove id).rec? id = none ∧ (∀ j, j ≠ id → (t.remove id).rec? j = t.rec? j) ∧
      (t.remove id).queue = t.queue.filter (fun x => x != id) ∧
      t.remove id = { t with recs := (t.remove id).recs, queue := (t.remove id).queue }) ∧
    (∀ f : Share → Nat, t.heldSum f = ((List.range 15).map (fun i => match t.rec? (i + 1) with
      | some r => (match r.holding with
        | .admitted a => f a
        | _ => 0)
      | none => 0)).sum) ∧
    (∀ a : Share, t.fits c a = true ↔ a.power ≤ c.powerBudget.toNat - t.heldSum Share.power ∧
      a.vent ≤ c.ventBudget.toNat - t.heldSum Share.vent ∧ a.fill ≤ c.fillBudget.toNat - t.heldSum Share.fill) ∧
    (t.queue = [] → t.scan c = t) ∧
    (∀ rest r a g, t.queue = id :: rest → t.rec? id = some r → r.holding = .waiting a g →
      (t.fits c a = false → t.scan c = t) ∧
      (t.fits c a = true →
        t.scan c = ({ t.put id (some { r with holding := .admitted a }) with queue := rest } : Table).scan c)) ∧
    (∀ r' : Option Rec, (t.put id r').rec? id = r' ∧ (∀ j, j ≠ id → (t.put id r').rec? j = t.rec? j) ∧
      t.put id r' = { t with recs := (t.put id r').recs }) ∧
    (∀ j, ((t.scan c).rec? j = t.rec? j ∨
        ∃ r a g, t.rec? j = some r ∧ r.holding = .waiting a g ∧ j ∈ t.queue ∧
          (t.scan c).rec? j = some { r with holding := .admitted a }) ∧
      t.scan c = { t with recs := (t.scan c).recs, queue := (t.scan c).queue } ∧ (t.scan c).queue <:+ t.queue)

/-- O45 (R55, R56, R61, R63): A ROLLCALL of a peer adds, resets or rejects its sender and opens the window. -/
def Obligations.RollcallResetsItsSender : Prop :=
  ∀ (s : State) (r : Reading), Hearing s → (s.table.rec? r.sender.toNat ≠ none → OwnNotWaiting s) → r.finding FrameKind.rollcall.code = false →
    r.sender.toNat ≠ 0 → r.sender.toNat ≠ s.ownId →
    let id := r.sender.toNat
    let equal := r.payload.p0 = s.cfg.powerBudget ∧ r.payload.p1 = s.cfg.ventBudget ∧ r.payload.p2 = s.cfg.fillBudget
    let opened (u : Table) : Table :=
      { u with windowOpen := true, windowTimer := .running (2112 * bitTicks s.line.rate) }
    let rejected := s.port.ring.after .budgetRejected id 5 r.payload.p0.toNat r.payload.p1.toNat r.payload.p2.toNat
    ∃ t, exec (.rollcall r) s = .next t ∧ HeardFrame r s t ∧ t.engine = s.engine ∧ t.fault = s.fault ∧
      t.out = (if s.control.station = .member then (s.out.withdraw id).post .standing .standing else s.out.withdraw id) ∧
      LoadsFollow s t ∧
      (s.table.rec? id = none → equal → t.table = opened (s.table.put id (some ⟨r.seq, .running s.cfg.leaseTicks, .none⟩)) ∧
        t.port.ring = s.port.ring.after .memberAdded id 5 0 0 0 ∧ KeepsCounters [.framesApplied] s t) ∧
      (s.table.rec? id = none → ¬ equal → t.table = opened s.table ∧ t.port.ring = rejected ∧
        t.counter .budgetRejections = satInc (s.counter .budgetRejections) ∧
        KeepsCounters [.framesApplied, .budgetRejections] s t) ∧
      (∀ p, s.table.rec? id = some p → equal →
        t.table = opened (((s.table.renew id r.seq s.cfg.leaseTicks).giveUp id).scan s.cfg) ∧
        t.port.ring = s.port.ring ∧ KeepsCounters [.framesApplied] s t) ∧
      (∀ p, s.table.rec? id = some p → ¬ equal → t.table = opened ((s.table.remove id).scan s.cfg) ∧
        t.port.ring = rejected.after .memberRemoved id 3 0 0 0 ∧
        t.counter .budgetRejections = satInc (s.counter .budgetRejections) ∧
        KeepsCounters [.framesApplied, .budgetRejections] s t)

/-- O46 (R45, R57, R58, R59, R60, R42, R94, R95, R99, R201): A STANDING of a peer is compared, adds its sender, or is rejected. That a STANDING reporting NONE with amounts that are not zero differs from a record NONE is the model's reading (log 32). That power above 63 or a fill flag above 1 is malformed with NONE too is the model's reading of R201 beside R57 (log 39). -/
def Obligations.StandingsCompareOrAdd : Prop :=
  ∀ (s : State) (r : Reading), Hearing s → r.finding FrameKind.standing.code = false →
    r.sender.toNat ≠ 0 → r.sender.toNat ≠ s.ownId →
    let id := r.sender.toNat
    let c := r.payload.standingFields
    let equal : Prop := r.payload.p0 = s.cfg.powerBudget ∧ r.payload.p1 = s.cfg.ventBudget ∧ r.payload.p2 = s.cfg.fillBudget
    let malformed : Prop := c.standing = 3 ∨ (c.standing = 2 ∧ c.position = 0) ∨ 63 < c.power ∨ 1 < c.fill ∨
      (c.standing ≠ 0 ∧ c.kind = 0)
    let differs (h : Holding) : Prop := malformed ∨
      (c.standing, c.power, c.vent, c.fill, c.kind) ≠ (match h with
        | .none => (0, 0, 0, 0, 0)
        | .admitted a => (1, a.power, a.vent, a.fill, a.kind.code)
        | .waiting a _ => (2, a.power, a.vent, a.fill, a.kind.code)) ∨
      (c.standing = 2 ∧ c.position ≠ queuePos s.table.queue id)
    let carried (k : PhaseKind) : Share := ⟨c.power, c.vent, c.fill, k⟩
    let added (h : Holding) : Table := s.table.put id (some ⟨r.seq, .running s.cfg.leaseTicks, h⟩)
    let rejected := s.port.ring.after .budgetRejected id 6 r.payload.p0.toNat r.payload.p1.toNat r.payload.p2.toNat
    (∀ (p : Rec) (before : Ring) (counted : List Counter), s.table.rec? id = some p → r.seq = p.seq + 1 →
      (equal ∧ before = s.port.ring ∧ counted = []) ∨
        (¬ equal ∧ s.control.station ≠ .gathering ∧ before = rejected ∧ counted = [.budgetRejections]) →
      ∃ t, exec (.standing r) s = .next t ∧ HeardFrame r s t ∧ t.table = s.table.renew id r.seq s.cfg.leaseTicks ∧
        KeepsEngineAndList [id] s t ∧ LoadsFollow s t ∧
        (∀ n ∈ counted, t.counter n = satInc (s.counter n)) ∧
        (¬ differs p.holding → t.port.ring = before ∧ KeepsCounters (.framesApplied :: counted) s t) ∧
        (differs p.holding →
          t.port.ring = before.after .standingDisagrees id c.standing c.position p.holding.code
            (queuePos s.table.queue id) ∧
          t.counter .disagreements = satInc (s.counter .disagreements) ∧
          KeepsCounters (.framesApplied :: .disagreements :: counted) s t)) ∧
    (∀ p, s.table.rec? id = some p → r.seq = p.seq + 1 → ¬ equal → s.control.station = .gathering →
      ∃ t, exec (.standing r) s = .next t ∧ t.control.station = .isolated ∧ t.control.isolation = some .budget) ∧
    (s.table.rec? id = none → ¬ equal → s.control.station ≠ .gathering →
      ∃ t, exec (.standing r) s = .next t ∧ HeardFrame r s t ∧ t.table = s.table ∧ KeepsEngineAndList [] s t ∧
        t.port.ring = rejected ∧ t.counter .budgetRejections = satInc (s.counter .budgetRejections) ∧
        KeepsCounters [.framesApplied, .budgetRejections] s t ∧ LoadsFollow s t) ∧
    (s.table.rec? id = none → ¬ equal → s.control.station = .gathering →
      ∃ t, exec (.standing r) s = .next t ∧ t.control.station = .isolated ∧ t.control.isolation = some .budget) ∧
    (s.table.rec? id = none → equal → c.standing = 0 → ¬ malformed →
      ∃ t, exec (.standing r) s = .next t ∧ HeardFrame r s t ∧ t.table = added .none ∧ KeepsEngineAndList [] s t ∧
        t.port.ring = s.port.ring.after .memberAdded id 6 0 0 0 ∧ KeepsCounters [.framesApplied] s t ∧ LoadsFollow s t) ∧
    (s.table.rec? id = none → equal → c.standing ≠ 0 ∨ malformed → s.control.station = .member →
      ∃ t, exec (.standing r) s = .next t ∧ t.control.station = .gathering ∧
        t.counter .resyncs = satInc (s.counter .resyncs) ∧ t.table = s.table.clear s.ownId ∧
        t.port.ring = s.ringMoved .gathering .unknownSender 0) ∧
    (s.table.rec? id = none → equal → s.control.station = .gathering →
      malformed ∨ (c.standing = 1 ∧ ∀ k, s.table.fits s.cfg (carried k) = false) →
      ∃ t, exec (.standing r) s = .next t ∧ t.control.station = .gathering ∧
        t.counter .gatherRestarts = satInc (s.counter .gatherRestarts) ∧ t.table = s.table.clear s.ownId ∧
        t.port.ring = s.ringMoved .gathering .gatherRestart 17) ∧
    (∀ k, s.table.rec? id = none → equal → s.control.station = .gathering → ¬ malformed → k.code = c.kind →
      c.standing = 1 → s.table.fits s.cfg (carried k) = true →
      ∃ t, exec (.standing r) s = .next t ∧ HeardFrame r s t ∧ t.table = added (.admitted (carried k)) ∧
        KeepsEngineAndList [] s t ∧ t.port.ring = s.port.ring.after .memberAdded id 6 1 0 0 ∧
        KeepsCounters [.framesApplied] s t ∧ LoadsFollow s t) ∧
    (∀ k, s.table.rec? id = none → equal → s.control.station = .gathering → ¬ malformed → k.code = c.kind →
      c.standing = 2 →
      ∃ t before after, exec (.standing r) s = .next t ∧ HeardFrame r s t ∧
        t.table = { added (.waiting (carried k) (some c.position)) with queue := before ++ id :: after } ∧
        s.table.queue = before ++ after ∧
        (∀ j ∈ before, ∃ g, (added (.waiting (carried k) (some c.position))).gathered? j = some g ∧ g ≤ c.position) ∧
        (∀ j, after.head? = some j → ∀ g,
          (added (.waiting (carried k) (some c.position))).gathered? j = some g → c.position < g) ∧
        KeepsEngineAndList [] s t ∧ t.port.ring = s.port.ring.after .memberAdded id 6 2 0 0 ∧
        KeepsCounters [.framesApplied] s t ∧ LoadsFollow s t)

/-- O47 (R14, R15, R24, R31, R37, R46, R83): An own STANDING, and an own RELEASE outside MEMBER, applied. -/
def Obligations.OwnFramesAdvanceTheSequence : Prop :=
  ∀ (s : State) (f : Frame) (r : Reading) (p : Rec) (id : SlotId) (e : Entry) (d : Option Content) (list : OutList),
    ReadsBack f r s → s.table.rec? s.ownId = some p →
    (s.out.flight = some id ∧ s.out.slot id = ⟨some e, d⟩ ∧
        list = { s.out.setSlot id ⟨d.map Entry.fresh, none⟩ with flight := none, seq := s.out.seq + 1, drops := 0 }) ∨
      (s.out.flight = none ∧ list = { s.out with seq := s.out.seq + 1, drops := 0 }) →
    let renewed : Table := { (s.table.put s.ownId (some { p with seq := f.seq })) with
      renewal := .running s.cfg.renewalTicks, selfLease := .running s.cfg.selfLeaseTicks }
    (f.kind = .standing → ∃ t, exec (.standing r) s = .next t ∧
      t.line = s.line.frameEnded (if r.slot1Dominant then .echoed else .none) ∧ t.table = renewed ∧
      t.out = list ∧
      t.control = { s.control with run := 0 } ∧ t.counter .ownApplied = satInc (s.counter .ownApplied) ∧
      t.counter .framesApplied = satInc (s.counter .framesApplied) ∧
      KeepsCounters [.ownApplied, .framesApplied] s t ∧ t.port.ring = s.port.ring ∧ KeepsPort s t ∧
      KeepsCabinet s t ∧ KeepsBase s t ∧ LoadsFollow s t) ∧
    (f.kind = .release → s.control.station ≠ .member → ∃ t, exec (.release r) s = .next t ∧
      t.table = (renewed.giveUp s.ownId).scan s.cfg ∧
      t.out = list ∧
      t.control = { s.control with run := 0 } ∧
      t.port.ring = s.port.ring.after .ownOutcome s.ownId 3 0 0 f.seq.toNat ∧
      KeepsCounters [.ownApplied, .framesApplied] s t ∧ KeepsPort s t ∧ KeepsCabinet s t ∧ KeepsBase s t ∧
      LoadsFollow s t)

/-- O48 (R37, R46, R51, R53, R55, R56, R79, R91, R104, R106, R133, R142): An own RELEASE in MEMBER, ROLLCALL, LEAVE and EXPIRE applied. That an own EXPIRE tells the engine nothing (log 20) and that a posting the delivery makes replaces the deferred one (log 21) are the model's readings. -/
def Obligations.OwnFramesOfEveryKind : Prop :=
  ∀ (s : State) (f : Frame) (r : Reading) (p : Rec) (id : SlotId) (e : Entry) (d : Option Content) (list : OutList),
    ReadsBack f r s → s.table.rec? s.ownId = some p →
    (s.out.flight = some id ∧ s.out.slot id = ⟨some e, d⟩ ∧
        list = { s.out.setSlot id ⟨d.map Entry.fresh, none⟩ with flight := none, seq := s.out.seq + 1, drops := 0 }) ∨
      (s.out.flight = none ∧ list = { s.out with seq := s.out.seq + 1, drops := 0 }) →
    let renewed : Table := { (s.table.put s.ownId (some { p with seq := f.seq })) with
      renewal := .running s.cfg.renewalTicks, selfLease := .running s.cfg.selfLeaseTicks }
    let applied (t : State) : Prop := t.counter .ownApplied = satInc (s.counter .ownApplied) ∧
      t.counter .framesApplied = satInc (s.counter .framesApplied) ∧ KeepsPort s t ∧ t.meas = s.meas ∧
      t.fault = s.fault ∧ KeepsBase s t ∧ LoadsFollow s t
    let line := s.line.frameEnded (if r.slot1Dominant then .echoed else .none)
    (f.kind = .release → s.control.station = .member → ∃ t, exec (.release r) s = .next t ∧ applied t ∧
      t.line = line ∧ t.table = (renewed.giveUp s.ownId).scan s.cfg ∧ t.control = { s.control with run := 0 } ∧
      t.port.ring = s.port.ring.after .ownOutcome s.ownId 3 0 0 f.seq.toNat ∧
      KeepsCounters [.ownApplied, .framesApplied] s t ∧
      (s.engine.state = .running .waiting ∨
          (s.engine.state = .running .active ∧ s.engine.current.request.isZero = false) →
        t.engine = { s.engine with state := .running .claiming } ∧
        t.out = list.post .intent (.claim s.engine.current.request)) ∧
      (s.engine.state = .held → s.engine.purge.isRunning = true → t.engine = { s.engine with purge := .stopped } ∧
        t.out = (if list.intent.entry.isSome ∨ list.intent.deferred.isSome then list.post .intent .release else list)) ∧
      (s.engine.state = .running .claiming ∨ s.engine.state = .running .regain ∨
          (s.engine.state = .running .active ∧ s.engine.current.request.isZero = true) ∨
          (s.engine.state = .held ∧ s.engine.purge.isRunning = false) ∨ s.engine.state.underWay = false →
        t.engine = s.engine ∧ t.out = list)) ∧
    (f.kind = .rollcall → ∃ t, exec (.rollcall r) s = .next t ∧ applied t ∧ t.line = line ∧
      t.table = { (renewed.giveUp s.ownId).scan s.cfg with
        windowOpen := true, windowTimer := .running (2112 * bitTicks s.line.rate) } ∧
      t.control = { s.control with
        run := 0,
        answered := s.control.answered || decide (s.control.station = .gathering ∧ list.rollcall = ⟨none, none⟩) } ∧
      t.out = (if s.control.station = .member then list.post .standing .standing else list) ∧
      t.port.ring = s.port.ring ∧ KeepsCounters [.ownApplied, .framesApplied] s t ∧ t.engine = s.engine) ∧
    (f.kind = .leave → s.control.station = .leaving → s.own = .none →
      s.control.awaited = some .leaveStation → ∃ t, exec (.leave r) s = .next t ∧ applied t ∧
      t.line.state = .detached ∧ t.table = s.table.clearAll ∧
      t.control = ⟨.offline, none, 0, 0, .stopped, .stopped, false, none⟩ ∧
      t.out = { s.out.emptied with seq := s.out.seq + 1, drops := 0 } ∧
      t.port.ring = (s.port.ring.after .stationState s.ownId 3 0 15 0).after .commandDone s.ownId 2 0 15 0 ∧
      KeepsCounters [.ownApplied, .framesApplied] s t ∧ t.engine = s.engine.afterLost) ∧
    (∀ x, f.kind = .expire → f.payload.p0.toNat = x → x ≠ s.ownId →
      (∀ peer, s.table.rec? x = some peer → peer.seq = f.payload.p1 → ∃ t, exec (.expire r) s = .next t ∧ applied t ∧
        t.line = line ∧ t.table = (renewed.remove x).scan s.cfg ∧ t.control = { s.control with run := 0 } ∧ t.out = list ∧
        t.port.ring = s.port.ring.after .memberRemoved x 1 0 0 0 ∧ KeepsCounters [.ownApplied, .framesApplied] s t ∧
        t.engine = s.engine) ∧
      ((∀ peer, s.table.rec? x = some peer → peer.seq ≠ f.payload.p1) → ∃ t, exec (.expire r) s = .next t ∧ applied t ∧
        t.line = line ∧ t.table = renewed ∧ t.control = { s.control with run := 0 } ∧ t.out = list ∧
        t.port.ring = s.port.ring ∧ t.counter .staleExpiries = satInc (s.counter .staleExpiries) ∧
        KeepsCounters [.ownApplied, .framesApplied, .staleExpiries] s t ∧ t.engine = s.engine))

/-- O49 (R37, R46, R67, R68, R69, R70, R71, R72, R79, R83, R84, R131): An own CLAIM: how it is settled, reported and told to the engine, and that one admitted at once makes a CLAIMING engine ACTIVE. GRANT before the engine's own acts is the model's reading (log 33), and so is the deferred posting installed before the delivery (log 21). -/
def Obligations.OwnClaimReachesTheEngine : Prop :=
  (∀ (s : State) (f : Frame) (r : Reading) (p : Rec) (e : Entry) (a : Share),
     ReadsBack f r s → f.kind = .claim → s.control.station = .member → s.engine.state = .running .claiming →
     s.table.rec? s.ownId = some p → p.holding = .none → s.table.queue = [] → s.out.flight = some .intent →
     s.out.intent = ⟨some e, none⟩ → f.payload.request? = some a → a = s.engine.current.request →
     f.payload.zeroRequest = false → claimRefused s.cfg f.payload = false → s.table.fits s.cfg a = true →
     ∃ t, exec (.claim r) s = .next t ∧ t.engine = { s.engine with state := .running .active } ∧
       t.own = .admitted a ∧ t.table.queue = [] ∧ (∀ j, j ≠ s.ownId → t.table.rec? j = s.table.rec? j) ∧
       t.port.ring = (s.port.ring.after .ownOutcome s.ownId 4 1 0 f.seq.toNat).after .grant s.ownId a.power a.vent a.fill
         a.kind.code ∧
       t.out = { s.out with intent := ⟨none, none⟩, flight := none, seq := s.out.seq + 1, drops := 0 } ∧
       t.control = { s.control with run := 0 } ∧ t.meas = s.meas ∧ t.fault = s.fault ∧ KeepsPort s t ∧ KeepsBase s t ∧
       LoadsFollow s t) ∧
  (∀ (s : State) (f : Frame) (r : Reading) (p : Rec) (id : SlotId) (e : Entry) (d : Option Content) (list : OutList),
    ReadsBack f r s → s.table.rec? s.ownId = some p →
    (s.out.flight = some id ∧ s.out.slot id = ⟨some e, d⟩ ∧
        list = { s.out.setSlot id ⟨d.map Entry.fresh, none⟩ with flight := none, seq := s.out.seq + 1, drops := 0 }) ∨
      (s.out.flight = none ∧ list = { s.out with seq := s.out.seq + 1, drops := 0 }) →
    f.kind = .claim →
    let renewed : Table := { (s.table.put s.ownId (some { p with seq := f.seq })) with
      renewal := .running s.cfg.renewalTicks, selfLease := .running s.cfg.selfLeaseTicks }
    let given := renewed.giveUp s.ownId
    let q := f.payload
    let zero : Prop := q.p0 = 0 ∧ q.p1 = 0 ∧ q.p2 = 0
    let refused : Prop := ¬ zero ∧ (63 < q.p0.toNat ∨ 31 < q.p1.toNat ∨ 1 < q.p2.toNat ∨ q.p3.toNat < 1 ∨ 7 < q.p3.toNat ∨
      s.cfg.powerBudget.toNat < q.p0.toNat ∨ s.cfg.ventBudget.toNat < q.p1.toNat ∨ s.cfg.fillBudget.toNat < q.p2.toNat)
    ∃ (u : Table) (v : State),
      (zero ∨ refused → u = given) ∧
      (∀ a : Share, ¬ zero → ¬ refused → a.power = q.p0.toNat → a.vent = q.p1.toNat → a.fill = q.p2.toNat →
        a.kind.code = q.p3.toNat →
        (∀ b, p.holding = .admitted b → a.power ≤ b.power → a.vent ≤ b.vent → a.fill ≤ b.fill →
          u = renewed.setHolding s.ownId (.admitted a)) ∧
        (¬ (∃ b, p.holding = .admitted b ∧ a.power ≤ b.power ∧ a.vent ≤ b.vent ∧ a.fill ≤ b.fill) →
          (given.queue = [] → given.fits s.cfg a = true → u = given.setHolding s.ownId (.admitted a)) ∧
          (given.queue ≠ [] ∨ given.fits s.cfg a = false →
            u = { given.setHolding s.ownId (.waiting a none) with queue := given.queue ++ [s.ownId] }))) ∧
      v.table = u.scan s.cfg ∧ v.out = list ∧
      v.line = s.line.frameEnded (if r.slot1Dominant then .echoed else .none) ∧ v.control = { s.control with run := 0 } ∧
      v.load = s.load ∧ KeepsCabinet s v ∧ KeepsBase s v ∧ KeepsPort s v ∧
      v.counter .ownApplied = satInc (s.counter .ownApplied) ∧
      v.counter .framesApplied = satInc (s.counter .framesApplied) ∧ KeepsCounters [.ownApplied, .framesApplied] s v ∧
      (refused → v.port.ring = s.port.ring.after .ownOutcome s.ownId 4 3 0 f.seq.toNat) ∧
      (¬ refused → v.port.ring = s.port.ring.after .ownOutcome s.ownId 4 v.own.code
        (if v.own.isWaiting then queuePos v.table.queue s.ownId else 0) f.seq.toNat) ∧
      (s.control.station ≠ .member → exec (.claim r) s = .next (refresh v)) ∧
      (s.control.station = .member →
        (refused → exec (.claim r) s = .next (refresh (notify .refused v))) ∧
        (¬ refused → v.own = .none → exec (.claim r) s = .next (refresh (notify .none v))) ∧
        (∀ b g, ¬ refused → v.own = .waiting b g → exec (.claim r) s = .next (refresh (notify .waiting v))) ∧
        (∀ b, ¬ refused → v.own = .admitted b → exec (.claim r) s = .next (refresh (notify .admitted (v.setPort { v.port with
          ring := v.port.ring.after .grant s.ownId b.power b.vent b.fill b.kind.code }))))))

/-- O50 (R4, R11, R12, R13, R14, R16, R17, R18, R100): Frames of an undefined kind, void frames of a peer, frames with a finding, and frames a station does not take in. That a frame row in WAIT_IDLE or DETACHED is no frame to the station is the model's reading (log 11). -/
def Obligations.UndefinedKindsAreCounted : Prop :=
  (∀ (s : State) (kind : BitVec 4) (r : Reading), s.line.state = .idle ∨ s.line.state = .receiving →
     let part : Prop := s.control.station.takesPart = true
     let echo : SlotAct := if s.control.station.takesPart ∧ r.slot1Dominant then .echoed else .none
     let before : Prop := r.markFaultAt ≠ none ∨ r.check ≠ checkOf kind r.sender r.seq r.payload
     let found : Prop := before ∨ r.slot1Fault = true ∨ r.slot2Fault = true
     let Row (row : Instr) : Prop := (kind, row) ∈ [((1 : BitVec 4), Instr.expire r), (2, .leave r), (3, .release r),
       (4, .claim r), (5, .rollcall r), (6, .standing r), (kind, .undefinedKindFrame kind r), (kind, .voidFrame kind r)]
     let same (t : State) : Prop := t.out = s.out ∧ t.table = s.table ∧ t.port.ring = s.port.ring ∧ KeepsPort s t ∧
       KeepsCabinet s t ∧ KeepsBase s t ∧ LoadsFollow s t
     let objects (act : SlotAct) : Prop := ∀ row, Row row → ∃ t, exec row s = .next t ∧ t.line = s.line.frameEnded act ∧
       t.control = { s.control with run := s.control.run + 1 } ∧
       t.counter .receptionErrors = satInc (s.counter .receptionErrors) ∧
       t.counter .objections = satInc (s.counter .objections) ∧
       KeepsCounters [.receptionErrors, .objections] s t ∧ same t
     let errs (act : SlotAct) : Prop := ∀ row, Row row → ∃ t, exec row s = .next t ∧ t.line = s.line.frameEnded act ∧
       t.control = s.control ∧ t.counter .receptionErrors = satInc (s.counter .receptionErrors) ∧
       KeepsCounters [.receptionErrors] s t ∧ same t
     (¬ found → kind.toNat = 0 ∨ 7 ≤ kind.toNat →
       ∃ t, exec (.undefinedKindFrame kind r) s = .next t ∧ t.line = s.line.frameEnded echo ∧ t.control = s.control ∧
         t.counter .undefinedKinds = satInc (s.counter .undefinedKinds) ∧ KeepsCounters [.undefinedKinds] s t ∧ same t) ∧
     (¬ found → ∃ t, exec (.voidFrame kind r) s = .next t ∧ t.line = s.line.frameEnded echo ∧ t.control = s.control ∧
       t.port = s.port ∧ same t) ∧
     (part → s.control.run < 15 → before → objects .objected) ∧
     (part → s.control.run < 15 → ¬ before → r.slot1Fault = true → objects .objectedSecond) ∧
     (part → ¬ before → r.slot1Fault = false → r.slot2Fault = true → errs echo) ∧
     (s.control.station = .isolated → found → errs .none) ∧
     (s.control.station = .isolated → ¬ found → ∀ row, Row row → 1 ≤ kind.toNat → kind.toNat ≤ 6 →
       ∃ t, exec row s = .next t ∧ t.line = s.line.frameEnded .none ∧ t.control = s.control ∧ t.port = s.port ∧ same t)) ∧
  (∀ (s : State) (kind : BitVec 4) (r : Reading) (row : Instr),
     (kind, row) ∈ [((1 : BitVec 4), Instr.expire r), (2, .leave r), (3, .release r), (4, .claim r), (5, .rollcall r),
       (6, .standing r), (kind, .undefinedKindFrame kind r), (kind, .voidFrame kind r)] →
     (s.line.state = .waitIdle → exec row s = .next (refresh (s.setLine { s.line with recessive := 0 }))) ∧
     (s.line.state = .detached → exec row s = .next (refresh s)))

/-- O51 (R48, R49, R61, R102): PEER_LEASE_TIMEOUT, RENEWAL_TIMEOUT, ROLLCALL_WINDOW_TIMEOUT and MEMBERSHIP_TIMEOUT. That the row asserts the end of the time is the model's choice (log 8). -/
def Obligations.LeasesRunOut : Prop :=
  ∀ s : State,
    (∀ (peer : BitVec 4) (p : Rec), s.table.rec? peer.toNat = some p → p.lease.isRunning = true →
      s.control.station.takesPart = true → peer.toNat ≠ s.ownId →
      ∃ t, exec (.peerLeaseTimeout peer) s = .next t ∧
        t.table = s.table.put peer.toNat (some { p with lease := .runOut }) ∧
        t.out = (if (s.out.slot (.expire peer.toNat)).entry.isSome then s.out
          else s.out.post (.expire peer.toNat) (.expire peer.toNat p.seq)) ∧
        t.line = s.line ∧ t.control = s.control ∧ t.port = s.port ∧ KeepsCabinet s t ∧ KeepsBase s t ∧ LoadsFollow s t) ∧
    (s.table.renewal.isRunning = true → ∃ t, exec .renewalTimeout s = .next t ∧
      t.table = { s.table with renewal := .runOut } ∧
      t.out = (if s.control.station = .member then s.out.post .standing .standing else s.out) ∧ t.line = s.line ∧
      t.control = s.control ∧ t.port = s.port ∧ KeepsCabinet s t ∧ KeepsBase s t ∧ LoadsFollow s t) ∧
    (s.table.windowTimer.isRunning = true → ∃ t, exec .rollcallWindowTimeout s = .next t ∧
      t.table = { s.table with windowTimer := .runOut } ∧ t.out = s.out ∧ t.line = s.line ∧ t.control = s.control ∧
      t.port = s.port ∧ KeepsCabinet s t ∧ KeepsBase s t ∧ LoadsFollow s t) ∧
    (s.control.memberTimer.isRunning = true → s.control.station = .member →
      ∃ t, exec .membershipTimeout s = .next t ∧ t.control = { s.control with rejoins := 0, memberTimer := .runOut } ∧
        t.table = s.table ∧ t.out = s.out ∧ t.line = s.line ∧ t.port = s.port ∧ KeepsCabinet s t ∧ KeepsBase s t ∧
        LoadsFollow s t)

/-- O52 (R50, R95, R161, R101, R106): The self-lease takes a MEMBER out of MEMBER and its loads off; AUTO_REJOIN tries three times. That SELF_LEASE and AUTO_REJOIN act on a timer with time left is the model's choice (log 8). -/
def Obligations.SelfLeaseAndAutoRejoin : Prop :=
  (∀ s : State, s.table.selfLease.isRunning = true →
     (s.control.station = .member → ∃ t, exec .selfLease s = .next t ∧
       EntersGathering .selfLease 0 s.out.emptied { s with table := { s.table with selfLease := .runOut } } t ∧
       t.table.selfLease = .runOut ∧ t.line = s.line ∧ t.counter .resyncs = satInc (s.counter .resyncs) ∧
       KeepsCounters [.resyncs] s t ∧ KeepsPort s t ∧
       t.control = { s.control with station := .gathering, answered := false, memberTimer := .stopped } ∧
       t.load.heaters = 0 ∧ t.load.steam = 0 ∧ t.load.vent = 0 ∧ t.load.fan = false ∧ t.load.valve = false) ∧
     (s.control.station ≠ .member → ∃ t, exec .selfLease s = .next t ∧
       t.table = { s.table with selfLease := .runOut } ∧ t.out = s.out ∧ t.line = s.line ∧ t.control = s.control ∧
       t.port = s.port ∧ KeepsCabinet s t ∧ KeepsBase s t ∧ LoadsFollow s t)) ∧
  (∀ s : State, s.control.rejoinTimer.isRunning = true → s.control.station = .isolated →
     (s.control.rejoins < 3 → ∃ t, exec .autoRejoin s = .next t ∧
       EntersGathering .autoRejoin (s.control.rejoins + 1) s.out s t ∧ t.line = s.line ∧
       t.port.counters = s.port.counters ∧ KeepsPort s t ∧
       t.control = { s.control with
         station := .gathering, answered := false, rejoins := s.control.rejoins + 1, rejoinTimer := .stopped,
         isolation := none }) ∧
     (3 ≤ s.control.rejoins → ∃ t, exec .autoRejoin s = .next t ∧
       t.control = { s.control with rejoinTimer := .runOut } ∧ t.line = s.line ∧ t.out = s.out ∧ t.table = s.table ∧
       t.port = s.port ∧ KeepsCabinet s t ∧ KeepsBase s t ∧ LoadsFollow s t))

/-- O53 (R153, R154, R155, R158, R159): A sample set replaces the latest sample and counts invalid readings. The half way values and the order of the two takers are free values (logs 3 and 4), and that SAMPLE_SET holds its inputs and counts the next second from itself is the model's choice (log 27). -/
def Obligations.SamplesAreStored : Prop :=
  (∀ (s : State) (inp : Sensors), ∃ (airUp humUp driveFirst : Bool) (t : State), exec (.sampleSet inp) s = .next t ∧
    t = refresh (sampleStep driveFirst (sampleOf airUp humUp inp) ((s.setFree (s.free + 3)).setMeas
      { s.meas with inputs := inp, nextSample := .running 40000 })) ∧
    t.meas.sample = sampleOf airUp humUp inp ∧
    t.meas.airBad = (if t.meas.sample.air.isSome then 0 else min (s.meas.airBad + 1) 255) ∧
    t.meas.humBad = (if t.meas.sample.hum.isSome then 0 else min (s.meas.humBad + 1) 255) ∧
    t.meas.markOverTemp = overTempAt s.engine t.meas.sample ∧
    t.meas.markSensor = (decide (3 ≤ t.meas.airBad) || decide (3 ≤ t.meas.humBad)) ∧
    t.meas.markNoWater = noWaterAt s.engine t.meas.sample ∧ t.meas.doorOpen = s.meas.doorOpen ∧
    t.meas.debounce = s.meas.debounce ∧ t.meas.inputs = inp ∧ t.meas.nextSample = .running 40000 ∧
    t.line = s.line ∧ t.table = s.table ∧ t.control = s.control ∧ t.cfg = s.cfg ∧
    t.pending = s.pending ∧ t.free = s.free + 3 ∧ KeepsPort s t ∧ t.port.counters = s.port.counters) ∧
  (∀ (airUp humUp : Bool) (inp : Sensors) (x : Int),
    let m := sampleOf airUp humUp inp
    (inp.tsens = .openCircuit ∨ inp.tsens = .shorted → m.air = none) ∧
    (inp.tsens = .measured x → x < -1000 ∨ 12000 < x → m.air = none) ∧
    (inp.tsens = .measured x → -1000 ≤ x → x ≤ 12000 → ∃ q, m.air = some q ∧ -25 ≤ 50 * q - x ∧ 50 * q - x ≤ 25) ∧
    (inp.hsens = .openCircuit ∨ inp.hsens = .shorted → m.hum = none) ∧
    (inp.hsens = .measured x → x < 0 ∨ 10000 < x → m.hum = none) ∧
    (inp.hsens = .measured x → 0 ≤ x → x ≤ 10000 →
      ∃ q : Nat, m.hum = some q ∧ -50 ≤ 100 * (q : Int) - x ∧ 100 * (q : Int) - x ≤ 50) ∧
    (m.reservoir = .empty ↔ inp.rlvl1 = false ∧ inp.rlvl0 = false) ∧
    (m.reservoir = .low ↔ inp.rlvl1 = false ∧ inp.rlvl0 = true) ∧
    (m.reservoir = .ok ↔ inp.rlvl1 = true ∧ inp.rlvl0 = false) ∧
    (m.reservoir = .full ↔ inp.rlvl1 = true ∧ inp.rlvl0 = true) ∧ m.tankFull = inp.tank)

/-- O54 (R111, R137, R138, R146, R153, R156): The engine's handling of a sample: the end test, the tank, LEVEL_LOW. That LEVEL_LOW uses the engine as it stands after it has handled the sample is the model's choice (log 37). -/
def Obligations.SamplesDriveTheEngine : Prop :=
  (∀ (d : Bool) (m : Sample) (s : State), overTempAt s.engine m = false → noWaterAt s.engine m = false →
     sensorAt (runCount m.air.isSome s.meas.airBad) (runCount m.hum.isSome s.meas.humBad) = false →
     (sampleStep d m s).setLoad s.load = (levelLow (tankTest (endTest (storeSample m s)))).setLoad s.load) ∧
  (∀ (p : Phase) (m : Sample), p.endMet m = true ↔
     (p.stop = .temp ∧ ∃ x, m.air = some x ∧ if p.kind = .cool then x ≤ 2 * (p.temp : Int) else 2 * (p.temp : Int) ≤ x) ∨
     (p.stop = .humid ∧ ∃ h, m.hum = some h ∧ if p.kind = .steam then p.hum ≤ h else h ≤ p.hum) ∨
     (p.stop = .level ∧ m.reservoir = .full)) ∧
  (∀ s : State,
     (s.engine.state = .running .active → s.engine.current.endMet s.meas.sample = true → endTest s = endPhase 1 s) ∧
     (s.engine.state ≠ .running .active ∨ s.engine.current.endMet s.meas.sample = false → endTest s = s) ∧
     (let condensate := s.engine.current.kind = .steam ∨ s.engine.current.kind = .dry
      let set (b : Bool) : HoldSet := { s.engine.holds with tank := b }
      (s.meas.sample.tankFull = true → condensate →
        (∀ b, s.engine.state = .running b →
          (tankTest s).engine = { s.engine with state := .held, holds := ⟨false, false, true⟩, purge := .stopped } ∧
          (tankTest s).out = s.listReleased ∧
          (tankTest s).port.ring = s.port.ring.after .holdOn s.engine.index 4 4 b.code 0) ∧
        (s.engine.state = .held → s.engine.holds.tank = false →
          tankTest s = (s.setEngine { s.engine with holds := set true }).setPort
            { s.port with ring := s.port.ring.after .holdOn s.engine.index 4 (set true).code 0 0 }) ∧
        (s.engine.state = .held → s.engine.holds.tank = true → tankTest s = s) ∧
        (s.engine.state.underWay = false → tankTest s = s)) ∧
      (s.meas.sample.tankFull = true → ¬ condensate → tankTest s = s) ∧
      (s.meas.sample.tankFull = false →
        (s.engine.state ≠ .held ∨ s.engine.holds.tank = false → tankTest s = s) ∧
        (s.engine.state = .held → s.engine.holds.tank = true →
          let u := (s.setEngine { s.engine with holds := set false }).setPort
            { s.port with ring := s.port.ring.after .holdOff s.engine.index 4 (set false).code 0 0 }
          ((set false).isEmpty = false → tankTest s = u) ∧
          ((set false).isEmpty = true →
            tankTest s = entryTests none (u.setEngine { s.engine with holds := HoldSet.empty, purge := .stopped }))))) ∧
     (s.meas.sample.reservoir = .low → s.engine.state.underWay = true → s.meas.lowReported = false →
       levelLow s = (s.setMeas { s.meas with lowReported := true }).setPort
         { s.port with ring := s.port.ring.after .levelLow s.engine.index 1 s.engine.current.kind.code 0 0 }) ∧
     (s.meas.sample.reservoir ≠ .low ∨ s.engine.state.underWay = false ∨ s.meas.lowReported = true → levelLow s = s))

/-- O55 (R155, R159, R172, R173, R174, R175, R176, R180, R125): A condition at a sample faults a running or held cycle. -/
def Obligations.ConditionsFault : Prop :=
  (∀ (e : Engine) (m : Sample), overTempAt e m = true ↔
    ∃ x, m.air = some x ∧ (170 < x ∨ (e.cls ≠ 0 ∧ 2 * ((e.maxTemp : Int) + 5) < x))) ∧
  (∀ (e : Engine) (m : Sample), noWaterAt e m = true ↔
    m.reservoir = .empty ∧ e.state = .running .active ∧ e.current.kind = .steam) ∧
  (∀ a b : Nat, sensorAt a b = true ↔ 3 ≤ a ∨ 3 ≤ b) ∧
  (∀ (s : State) (m : Sample) (d : Bool) (sub : FaultSub),
    (∃ b, s.engine.state = .running b ∧ sub = .running b) ∨ (s.engine.state = .held ∧ sub = .held) →
    let hot := overTempAt s.engine m
    let blind := sensorAt (runCount m.air.isSome s.meas.airBad) (runCount m.hum.isSome s.meas.humBad)
    let dry := noWaterAt s.engine m
    hot = true ∨ blind = true ∨ dry = true →
    let first : FaultCode := if hot then .overTemp else if blind then .sensor else .noWater
    let later : List FaultCode := (if hot && blind then [.sensor] else []) ++ (if (hot || blind) && dry then [.noWater] else [])
    let t := refresh (sampleStep d m s)
    t.engine = { s.engine with state := .faulted, purge := .stopped, holds := HoldSet.empty } ∧
    t.fault = some ⟨first, s.engine.index, s.engine.current.kind, sub,
      if s.engine.state = .held then s.engine.holds else HoldSet.empty, m.air, m.hum, later.length, later.getLast?⟩ ∧
    t.out = s.listReleased ∧
    t.port.ring = s.port.ring.after .fault s.engine.index first.code s.engine.current.kind.code sub.code 0 ∧
    t.load.heaters = 0 ∧ t.load.steam = 0 ∧ t.load.vent = 0 ∧ t.load.fan = false ∧ t.load.valve = false)

/-- O56 (R124, R161, R162, R163, R164, R165, R166, R167, R168, R169): The loads as they follow the load request, and regulation at a sample. What an OFF latch does at or above the target less 3 is the model's reading (log 23). That the request of another STEAM phase sets the latch ON again is its reading too (log 22). -/
def Obligations.HeaterAndSteamSteps : Prop :=
  (∀ (n allowance target : Nat) (x : Int),
    heaterStep n allowance target none = 0 ∧
    (x < 2 * (target : Int) - 2 → heaterStep n allowance target (some x) = if n < allowance then n + 1 else n) ∧
    (2 * (target : Int) + 2 < x → heaterStep n allowance target (some x) = n - 1) ∧
    (2 * (target : Int) - 2 ≤ x → x ≤ 2 * (target : Int) + 2 → heaterStep n allowance target (some x) = n)) ∧
  (∀ (l : Load) (target allowance h : Nat),
    steamDecision l target allowance none = (false, 0) ∧
    (l.latch = true → target ≤ h → steamDecision l target allowance (some h) = (false, 0)) ∧
    (l.latch = true → h < target → steamDecision l target allowance (some h) = (true, allowance)) ∧
    (l.latch = false → h + 3 < target → steamDecision l target allowance (some h) = (true, allowance)) ∧
    (l.latch = false → target ≤ h + 3 → steamDecision l target allowance (some h) = (false, 0))) ∧
  (∀ (s : State) (i : Nat) (p : Phase), s.load.gate = true → s.load.request = .phase i p →
    let power := s.own.held Share.power
    let steam := min s.cfg.steamCount.toNat (power / s.cfg.steamRating.toNat)
    let t := regulate s
    let heaters := min s.cfg.heaterCount.toNat ((power - t.load.steam * s.cfg.steamRating.toNat) / s.cfg.heaterRating.toNat)
    t = s.setLoad t.load ∧
    t.load = { s.load with latch := t.load.latch, steam := t.load.steam, heaters := t.load.heaters } ∧
    (t.load.latch, t.load.steam) =
      (if p.kind = .steam then steamDecision s.load p.hum steam s.meas.sample.hum else (false, 0)) ∧
    (p.kind = .fill ∨ p.kind = .cool ∨ p.temp = 0 → t.load.heaters = 0) ∧
    (p.kind ≠ .fill → p.kind ≠ .cool → p.temp ≠ 0 →
      t.load.heaters = heaterStep (min s.load.heaters heaters) heaters p.temp s.meas.sample.air)) ∧
  (∀ s : State,
    let power := s.own.held Share.power
    let vent := s.own.held Share.vent
    let steamMost := min s.cfg.steamCount.toNat (power / s.cfg.steamRating.toNat)
    let t := refresh s
    t = s.setLoad t.load ∧
    s.engine.loadRequest = (match s.engine.state with
      | .running .active => .phase s.engine.index s.engine.current
      | .held => if s.engine.purge.isRunning then .purge else .off
      | _ => .off) ∧
    (s.gateOpen = true ↔
      s.control.station = .member ∧ (∃ a, s.own = .admitted a) ∧ s.engine.loadRequest ≠ .off) ∧
    (∀ i p, s.gateOpen = true → s.engine.loadRequest = .phase i p →
      let fresh : Prop := s.load.gate = false ∨ s.load.request ≠ .phase i p
      t.load.gate = true ∧ t.load.request = .phase i p ∧
      t.load.vent = (if p.kind = .fill ∨ p.kind = .settle then 0 else vent) ∧
      (t.load.valve = true ↔ p.kind = .fill ∧ s.own.held Share.fill = 1 ∧ s.meas.sample.reservoir ≠ .full) ∧
      (t.load.fan = true ↔ p.kind ≠ .fill) ∧
      (p.kind ≠ .steam → t.load.latch = false ∧ t.load.steam = 0) ∧
      (p.kind = .steam → fresh → t.load.latch = true ∧ t.load.steam = steamMost) ∧
      (p.kind = .steam → ¬ fresh → t.load.latch = s.load.latch ∧
        t.load.steam = if s.load.latch then min s.load.steam steamMost else 0) ∧
      (p.kind = .fill ∨ p.kind = .cool ∨ p.temp = 0 → t.load.heaters = 0) ∧
      (p.kind ≠ .fill → p.kind ≠ .cool → p.temp ≠ 0 →
        t.load.heaters = min s.load.heaters
          (min s.cfg.heaterCount.toNat ((power - t.load.steam * s.cfg.steamRating.toNat) / s.cfg.heaterRating.toNat)))) ∧
    (s.gateOpen = true → s.engine.loadRequest = .purge → t.load = ⟨.purge, true, 0, 0, false, vent, true, false⟩) ∧
    (s.gateOpen = false → t.load = ⟨s.engine.loadRequest, false, 0, 0, false, 0,
      decide (s.control.station = .member ∧ (s.engine.loadRequest = .purge ∨
        (s.engine.state = .running .active ∧ s.engine.current.kind ≠ .fill))), false⟩))

/-- O57 (R157, R143, R141, R144, R145, R147, R124, R125): DOOR_EDGE starts the debounce; the door opening holds a cycle, with a purge where vent is held; the door closing ends the hold. That DOOR_CHANGE acts on a debounce timer with time left is the model's choice (log 8). -/
def Obligations.DoorEdgesAndChanges : Prop :=
  (∀ s : State, ∃ t, exec .doorEdge s = .next t ∧
     t.meas = { s.meas with
       doorPinClosed := !s.meas.doorPinClosed,
       debounce := if s.meas.doorPinClosed = !s.meas.doorOpen then .running 2000 else .stopped } ∧
     t.engine = s.engine ∧ t.fault = s.fault ∧ t.port = s.port ∧ KeepsLine s t ∧ KeepsBase s t ∧ LoadsFollow s t) ∧
  (∀ s : State, s.meas.debounce.isRunning = true → s.meas.doorPinClosed = false →
     let meas : Meas := { s.meas with doorOpen := true, debounce := .stopped }
     (∀ b, s.engine.state = .running b → ∃ t, exec .doorChange s = .next t ∧ t.meas = meas ∧ t.fault = s.fault ∧
       t.port.ring = s.port.ring.after .holdOn s.engine.index 2 2 b.code 0 ∧ t.port.counters = s.port.counters ∧
       KeepsPort s t ∧ KeepsBase s t ∧ t.line = s.line ∧ t.table = s.table ∧ t.control = s.control ∧ LoadsFollow s t ∧
       (s.purgeStarts = true →
         t.engine = { s.engine with state := .held, holds := ⟨false, true, false⟩, purge := .running (s.cfg.purgeTime.toNat * 40000) } ∧
         t.out = s.out ∧ t.load.heaters = 0 ∧ t.load.steam = 0 ∧ t.load.vent = s.own.held Share.vent ∧
         t.load.fan = true ∧ t.load.valve = false) ∧
       (s.purgeStarts = false →
         t.engine = { s.engine with state := .held, holds := ⟨false, true, false⟩, purge := .stopped } ∧
         t.out = s.listReleased ∧ t.load.heaters = 0 ∧ t.load.steam = 0 ∧ t.load.vent = 0 ∧ t.load.fan = false ∧
         t.load.valve = false)) ∧
     (s.engine.state = .held → ∃ t, exec .doorChange s = .next t ∧ t.meas = meas ∧ t.fault = s.fault ∧ KeepsLine s t ∧
       t.port.counters = s.port.counters ∧ KeepsPort s t ∧ KeepsBase s t ∧ LoadsFollow s t ∧
       t.engine = { s.engine with holds := { s.engine.holds with door := true } } ∧
       t.port.ring = (if s.engine.holds.door then s.port.ring
         else s.port.ring.after .holdOn s.engine.index 2 { s.engine.holds with door := true }.code 0 0)) ∧
     (s.engine.state.underWay = false → ∃ t, exec .doorChange s = .next t ∧ t.meas = meas ∧ t.engine = s.engine ∧
       t.fault = s.fault ∧ t.port = s.port ∧ KeepsLine s t ∧ KeepsBase s t ∧ LoadsFollow s t) ∧
     (s.purgeStarts = true ↔ s.engine.state = .running .active ∧ s.control.station = .member ∧
       0 < s.own.held Share.vent ∧ s.cfg.purgeTime ≠ 0)) ∧
  (∀ s : State, s.meas.debounce.isRunning = true → s.meas.doorPinClosed = true →
     let meas : Meas := { s.meas with doorOpen := false, debounce := .stopped }
     let left : HoldSet := { s.engine.holds with door := false }
     let ring := s.port.ring.after .holdOff s.engine.index 2 left.code 0 0
     (s.engine.state = .held → s.engine.holds.door = true → left.isEmpty = false → ∃ t, exec .doorChange s = .next t ∧
       t.meas = meas ∧ t.fault = s.fault ∧ t.port.ring = ring ∧ t.port.counters = s.port.counters ∧ KeepsPort s t ∧
       KeepsBase s t ∧ t.line = s.line ∧ t.table = s.table ∧ t.control = s.control ∧ LoadsFollow s t ∧
       (s.engine.purge.isRunning = true → t.engine = { s.engine with holds := left, purge := .stopped } ∧
         t.out = s.listReleased) ∧
       (s.engine.purge.isRunning = false → t.engine = { s.engine with holds := left } ∧ t.out = s.out)) ∧
     (s.engine.state = .held → s.engine.holds = ⟨false, true, false⟩ →
       exec .doorChange s = .next (refresh (entryTests none (((s.setMeas meas).setEngine
         { s.engine with holds := HoldSet.empty, purge := .stopped }).setPort { s.port with ring := ring })))) ∧
     (s.engine.state ≠ .held ∨ s.engine.holds.door = false → ∃ t, exec .doorChange s = .next t ∧ t.meas = meas ∧
       t.engine = s.engine ∧ t.fault = s.fault ∧ t.port = s.port ∧ KeepsLine s t ∧ KeepsBase s t ∧ LoadsFollow s t))

/-- O58 (R144, R125, R137, R138, R139, R150): PURGE_TIMEOUT, and PHASE_DURATION_REACHED and PHASE_LIMIT_REACHED on the last phase and on a limit that faults. That the row asserts the end of the time is the model's choice (log 8). -/
def Obligations.PurgesAndPhasesEnd : Prop :=
  (∀ s : State, s.engine.state = .held → s.engine.purge.isRunning = true →
     ∃ t, exec .purgeTimeout s = .next t ∧ t.engine = { s.engine with purge := .stopped } ∧ t.out = s.listReleased ∧
       t.port = s.port ∧ t.line = s.line ∧ t.table = s.table ∧ t.control = s.control ∧ t.meas = s.meas ∧
       t.fault = s.fault ∧ KeepsBase s t ∧ t.load.heaters = 0 ∧ t.load.steam = 0 ∧ t.load.vent = 0 ∧
       t.load.fan = false ∧ t.load.valve = false) ∧
  (∀ s : State, s.engine.state = .running .active →
     let p := s.engine.current
     let ended (outcome secs : Nat) : Ring :=
       (s.port.ring.after .phaseEnd s.engine.index p.kind.code outcome (secs / 256) secs).after .cycleDone s.engine.index
         s.engine.phases.length s.engine.cls 0 0
     let off (t : State) : Prop := t.load.heaters = 0 ∧ t.load.steam = 0 ∧ t.load.vent = 0 ∧ t.load.fan = false ∧
       t.load.valve = false
     let kept (t : State) : Prop := t.line = s.line ∧ t.table = s.table ∧ t.control = s.control ∧ t.meas = s.meas ∧
       t.port.counters = s.port.counters ∧ KeepsPort s t ∧ KeepsBase s t
     (p.stop = .time → s.engine.phases.length ≤ s.engine.index + 1 → ∃ t, exec .phaseDurationReached s = .next t ∧
       t.engine = { s.engine with state := .complete, phaseTimer := p.duration * 40000 } ∧ t.out = s.listReleased ∧
       t.port.ring = ended 1 p.duration ∧ t.fault = s.fault ∧ off t ∧ kept t) ∧
     (p.stop ≠ .time → p.onLimitFault = false → s.engine.phases.length ≤ s.engine.index + 1 →
       ∃ t, exec .phaseLimitReached s = .next t ∧
         t.engine = { s.engine with state := .complete, phaseTimer := p.limit * 40000, limitTimer := p.limit * 40000 } ∧
         t.out = s.listReleased ∧ t.port.ring = ended 2 p.limit ∧ t.fault = s.fault ∧ off t ∧ kept t) ∧
     (p.stop ≠ .time → p.onLimitFault = true → ∃ t, exec .phaseLimitReached s = .next t ∧
       t.engine = { s.engine with
         state := .faulted, phaseTimer := p.limit * 40000, limitTimer := p.limit * 40000, purge := .stopped,
         holds := HoldSet.empty } ∧
       t.out = s.listReleased ∧ t.port.ring = s.port.ring.after .fault s.engine.index 4 p.kind.code 3 0 ∧
       t.fault = some ⟨.phaseLimit, s.engine.index, p.kind, .running .active, HoldSet.empty, s.meas.sample.air,
         s.meas.sample.hum, 0, none⟩ ∧ off t ∧ kept t))

/-- O59 (R133): The notification NONE while RUNNING. -/
def Obligations.AnswerNone : Prop :=
  ∀ s : State,
    (s.engine.state = .running .claiming → notify .none s = s) ∧
    (s.engine.state = .running .waiting ∨
        (s.engine.state = .running .active ∧ s.engine.current.request.isZero = false) →
      (notify .none s).engine = { s.engine with state := .running .claiming } ∧
      (notify .none s).engine.loadRequest = .off ∧
      (s.control.station = .member →
        notify .none s = (s.setEngine { s.engine with state := .running .claiming }).setOut
          (s.out.post .intent (.claim s.engine.current.request)))) ∧
    (s.engine.state = .running .active → s.engine.current.request.isZero = true → notify .none s = s) ∧
    (s.engine.state = .running .regain → notify .none s = s)

/-- O60 (R131, R132, R134, R135, R142, R144, R125, R172): The notifications ADMITTED, WAITING, REFUSED and LOST, and every notification in HELD. -/
def Obligations.AnswersFromTheBank : Prop :=
  ∀ s : State,
    let req := s.engine.current.request
    let covered := s.own.coversRequest req
    let claims : State := (s.setEngine { s.engine with state := .running .claiming }).setOut (s.out.post .intent (.claim req))
    (s.engine.state = .running .claiming ∨ s.engine.state = .running .waiting → covered = true →
      notify .admitted s = s.setEngine { s.engine with state := .running .active }) ∧
    (s.engine.state = .running .active → covered = true ∨ req.isZero = true → notify .admitted s = s) ∧
    (s.engine.state = .running .claiming → covered = false → notify .admitted s = s) ∧
    (s.engine.state = .running .waiting ∨ (s.engine.state = .running .active ∧ req.isZero = false) → covered = false →
      (notify .admitted s).engine = { s.engine with state := .running .claiming } ∧
      (s.control.station = .member → notify .admitted s = claims)) ∧
    (s.engine.state = .running .claiming ∨ (s.engine.state = .running .active ∧ req.isZero = false) →
      notify .waiting s = s.setEngine { s.engine with state := .running .waiting }) ∧
    (s.engine.state = .running .waiting ∨ (s.engine.state = .running .active ∧ req.isZero = true) →
      notify .waiting s = s) ∧
    (∀ n, n = .admitted ∨ n = .waiting ∨ n = .none → s.engine.state = .running .regain → notify n s = s) ∧
    (∀ b, s.engine.state = .running b → notify .lost s = s.setEngine { s.engine with state := .running .regain }) ∧
    (s.engine.state = .held → notify .lost s = s.setEngine { s.engine with purge := .stopped }) ∧
    (∀ sub, (∃ b, s.engine.state = .running b ∧ sub = .running b) ∨ (s.engine.state = .held ∧ sub = .held) →
      (notify .refused s).engine = { s.engine with state := .faulted, purge := .stopped, holds := HoldSet.empty } ∧
      (notify .refused s).fault = some ⟨.claimRefused, s.engine.index, s.engine.current.kind, sub,
        if s.engine.state = .held then s.engine.holds else HoldSet.empty, s.meas.sample.air, s.meas.sample.hum, 0, none⟩ ∧
      (notify .refused s).out = s.listReleased ∧
      (notify .refused s).port.ring =
        s.port.ring.after .fault s.engine.index 5 s.engine.current.kind.code sub.code 0) ∧
    (∀ n, n = .admitted ∨ n = .waiting ∨ n = .none → s.engine.state = .held →
      (s.engine.purge.isRunning = true → s.own.held Share.vent = 0 →
        notify n s = (s.setEngine { s.engine with purge := .stopped }).setOut s.listReleased) ∧
      (s.engine.purge.isRunning = false ∨ 0 < s.own.held Share.vent → notify n s = s)) ∧
    (∀ n, s.engine.state.underWay = false → notify n s = s)
end

