-- ==== Sys2Proof/Laws/State.lean ====
section
/-! SUPPORT. One lemma per setter and field, and the fields of what the basic operations leave. -/

namespace Sys2Proof.Machine

@[simp] theorem State.setPending_pending (s : State) (x : List Instr) : (s.setPending x).pending = x := rfl
@[simp] theorem State.setPending_free (s : State) (x : List Instr) : (s.setPending x).free = s.free := rfl
@[simp] theorem State.setPending_cfg (s : State) (x : List Instr) : (s.setPending x).cfg = s.cfg := rfl
@[simp] theorem State.setPending_line (s : State) (x : List Instr) : (s.setPending x).line = s.line := rfl
@[simp] theorem State.setPending_out (s : State) (x : List Instr) : (s.setPending x).out = s.out := rfl
@[simp] theorem State.setPending_table (s : State) (x : List Instr) : (s.setPending x).table = s.table := rfl
@[simp] theorem State.setPending_control (s : State) (x : List Instr) : (s.setPending x).control = s.control := rfl
@[simp] theorem State.setPending_engine (s : State) (x : List Instr) : (s.setPending x).engine = s.engine := rfl
@[simp] theorem State.setPending_meas (s : State) (x : List Instr) : (s.setPending x).meas = s.meas := rfl
@[simp] theorem State.setPending_load (s : State) (x : List Instr) : (s.setPending x).load = s.load := rfl
@[simp] theorem State.setPending_fault (s : State) (x : List Instr) : (s.setPending x).fault = s.fault := rfl
@[simp] theorem State.setPending_port (s : State) (x : List Instr) : (s.setPending x).port = s.port := rfl

@[simp] theorem State.setFree_pending (s : State) (x : Nat) : (s.setFree x).pending = s.pending := rfl
@[simp] theorem State.setFree_free (s : State) (x : Nat) : (s.setFree x).free = x := rfl
@[simp] theorem State.setFree_cfg (s : State) (x : Nat) : (s.setFree x).cfg = s.cfg := rfl
@[simp] theorem State.setFree_line (s : State) (x : Nat) : (s.setFree x).line = s.line := rfl
@[simp] theorem State.setFree_out (s : State) (x : Nat) : (s.setFree x).out = s.out := rfl
@[simp] theorem State.setFree_table (s : State) (x : Nat) : (s.setFree x).table = s.table := rfl
@[simp] theorem State.setFree_control (s : State) (x : Nat) : (s.setFree x).control = s.control := rfl
@[simp] theorem State.setFree_engine (s : State) (x : Nat) : (s.setFree x).engine = s.engine := rfl
@[simp] theorem State.setFree_meas (s : State) (x : Nat) : (s.setFree x).meas = s.meas := rfl
@[simp] theorem State.setFree_load (s : State) (x : Nat) : (s.setFree x).load = s.load := rfl
@[simp] theorem State.setFree_fault (s : State) (x : Nat) : (s.setFree x).fault = s.fault := rfl
@[simp] theorem State.setFree_port (s : State) (x : Nat) : (s.setFree x).port = s.port := rfl

@[simp] theorem State.setCfg_pending (s : State) (x : Settings) : (s.setCfg x).pending = s.pending := rfl
@[simp] theorem State.setCfg_free (s : State) (x : Settings) : (s.setCfg x).free = s.free := rfl
@[simp] theorem State.setCfg_cfg (s : State) (x : Settings) : (s.setCfg x).cfg = x := rfl
@[simp] theorem State.setCfg_line (s : State) (x : Settings) : (s.setCfg x).line = s.line := rfl
@[simp] theorem State.setCfg_out (s : State) (x : Settings) : (s.setCfg x).out = s.out := rfl
@[simp] theorem State.setCfg_table (s : State) (x : Settings) : (s.setCfg x).table = s.table := rfl
@[simp] theorem State.setCfg_control (s : State) (x : Settings) : (s.setCfg x).control = s.control := rfl
@[simp] theorem State.setCfg_engine (s : State) (x : Settings) : (s.setCfg x).engine = s.engine := rfl
@[simp] theorem State.setCfg_meas (s : State) (x : Settings) : (s.setCfg x).meas = s.meas := rfl
@[simp] theorem State.setCfg_load (s : State) (x : Settings) : (s.setCfg x).load = s.load := rfl
@[simp] theorem State.setCfg_fault (s : State) (x : Settings) : (s.setCfg x).fault = s.fault := rfl
@[simp] theorem State.setCfg_port (s : State) (x : Settings) : (s.setCfg x).port = s.port := rfl

@[simp] theorem State.setLine_pending (s : State) (x : Line) : (s.setLine x).pending = s.pending := rfl
@[simp] theorem State.setLine_free (s : State) (x : Line) : (s.setLine x).free = s.free := rfl
@[simp] theorem State.setLine_cfg (s : State) (x : Line) : (s.setLine x).cfg = s.cfg := rfl
@[simp] theorem State.setLine_line (s : State) (x : Line) : (s.setLine x).line = x := rfl
@[simp] theorem State.setLine_out (s : State) (x : Line) : (s.setLine x).out = s.out := rfl
@[simp] theorem State.setLine_table (s : State) (x : Line) : (s.setLine x).table = s.table := rfl
@[simp] theorem State.setLine_control (s : State) (x : Line) : (s.setLine x).control = s.control := rfl
@[simp] theorem State.setLine_engine (s : State) (x : Line) : (s.setLine x).engine = s.engine := rfl
@[simp] theorem State.setLine_meas (s : State) (x : Line) : (s.setLine x).meas = s.meas := rfl
@[simp] theorem State.setLine_load (s : State) (x : Line) : (s.setLine x).load = s.load := rfl
@[simp] theorem State.setLine_fault (s : State) (x : Line) : (s.setLine x).fault = s.fault := rfl
@[simp] theorem State.setLine_port (s : State) (x : Line) : (s.setLine x).port = s.port := rfl

@[simp] theorem State.setOut_pending (s : State) (x : OutList) : (s.setOut x).pending = s.pending := rfl
@[simp] theorem State.setOut_free (s : State) (x : OutList) : (s.setOut x).free = s.free := rfl
@[simp] theorem State.setOut_cfg (s : State) (x : OutList) : (s.setOut x).cfg = s.cfg := rfl
@[simp] theorem State.setOut_line (s : State) (x : OutList) : (s.setOut x).line = s.line := rfl
@[simp] theorem State.setOut_out (s : State) (x : OutList) : (s.setOut x).out = x := rfl
@[simp] theorem State.setOut_table (s : State) (x : OutList) : (s.setOut x).table = s.table := rfl
@[simp] theorem State.setOut_control (s : State) (x : OutList) : (s.setOut x).control = s.control := rfl
@[simp] theorem State.setOut_engine (s : State) (x : OutList) : (s.setOut x).engine = s.engine := rfl
@[simp] theorem State.setOut_meas (s : State) (x : OutList) : (s.setOut x).meas = s.meas := rfl
@[simp] theorem State.setOut_load (s : State) (x : OutList) : (s.setOut x).load = s.load := rfl
@[simp] theorem State.setOut_fault (s : State) (x : OutList) : (s.setOut x).fault = s.fault := rfl
@[simp] theorem State.setOut_port (s : State) (x : OutList) : (s.setOut x).port = s.port := rfl

@[simp] theorem State.setTable_pending (s : State) (x : Table) : (s.setTable x).pending = s.pending := rfl
@[simp] theorem State.setTable_free (s : State) (x : Table) : (s.setTable x).free = s.free := rfl
@[simp] theorem State.setTable_cfg (s : State) (x : Table) : (s.setTable x).cfg = s.cfg := rfl
@[simp] theorem State.setTable_line (s : State) (x : Table) : (s.setTable x).line = s.line := rfl
@[simp] theorem State.setTable_out (s : State) (x : Table) : (s.setTable x).out = s.out := rfl
@[simp] theorem State.setTable_table (s : State) (x : Table) : (s.setTable x).table = x := rfl
@[simp] theorem State.setTable_control (s : State) (x : Table) : (s.setTable x).control = s.control := rfl
@[simp] theorem State.setTable_engine (s : State) (x : Table) : (s.setTable x).engine = s.engine := rfl
@[simp] theorem State.setTable_meas (s : State) (x : Table) : (s.setTable x).meas = s.meas := rfl
@[simp] theorem State.setTable_load (s : State) (x : Table) : (s.setTable x).load = s.load := rfl
@[simp] theorem State.setTable_fault (s : State) (x : Table) : (s.setTable x).fault = s.fault := rfl
@[simp] theorem State.setTable_port (s : State) (x : Table) : (s.setTable x).port = s.port := rfl

@[simp] theorem State.setControl_pending (s : State) (x : Control) : (s.setControl x).pending = s.pending := rfl
@[simp] theorem State.setControl_free (s : State) (x : Control) : (s.setControl x).free = s.free := rfl
@[simp] theorem State.setControl_cfg (s : State) (x : Control) : (s.setControl x).cfg = s.cfg := rfl
@[simp] theorem State.setControl_line (s : State) (x : Control) : (s.setControl x).line = s.line := rfl
@[simp] theorem State.setControl_out (s : State) (x : Control) : (s.setControl x).out = s.out := rfl
@[simp] theorem State.setControl_table (s : State) (x : Control) : (s.setControl x).table = s.table := rfl
@[simp] theorem State.setControl_control (s : State) (x : Control) : (s.setControl x).control = x := rfl
@[simp] theorem State.setControl_engine (s : State) (x : Control) : (s.setControl x).engine = s.engine := rfl
@[simp] theorem State.setControl_meas (s : State) (x : Control) : (s.setControl x).meas = s.meas := rfl
@[simp] theorem State.setControl_load (s : State) (x : Control) : (s.setControl x).load = s.load := rfl
@[simp] theorem State.setControl_fault (s : State) (x : Control) : (s.setControl x).fault = s.fault := rfl
@[simp] theorem State.setControl_port (s : State) (x : Control) : (s.setControl x).port = s.port := rfl

@[simp] theorem State.setEngine_pending (s : State) (x : Engine) : (s.setEngine x).pending = s.pending := rfl
@[simp] theorem State.setEngine_free (s : State) (x : Engine) : (s.setEngine x).free = s.free := rfl
@[simp] theorem State.setEngine_cfg (s : State) (x : Engine) : (s.setEngine x).cfg = s.cfg := rfl
@[simp] theorem State.setEngine_line (s : State) (x : Engine) : (s.setEngine x).line = s.line := rfl
@[simp] theorem State.setEngine_out (s : State) (x : Engine) : (s.setEngine x).out = s.out := rfl
@[simp] theorem State.setEngine_table (s : State) (x : Engine) : (s.setEngine x).table = s.table := rfl
@[simp] theorem State.setEngine_control (s : State) (x : Engine) : (s.setEngine x).control = s.control := rfl
@[simp] theorem State.setEngine_engine (s : State) (x : Engine) : (s.setEngine x).engine = x := rfl
@[simp] theorem State.setEngine_meas (s : State) (x : Engine) : (s.setEngine x).meas = s.meas := rfl
@[simp] theorem State.setEngine_load (s : State) (x : Engine) : (s.setEngine x).load = s.load := rfl
@[simp] theorem State.setEngine_fault (s : State) (x : Engine) : (s.setEngine x).fault = s.fault := rfl
@[simp] theorem State.setEngine_port (s : State) (x : Engine) : (s.setEngine x).port = s.port := rfl

@[simp] theorem State.setMeas_pending (s : State) (x : Meas) : (s.setMeas x).pending = s.pending := rfl
@[simp] theorem State.setMeas_free (s : State) (x : Meas) : (s.setMeas x).free = s.free := rfl
@[simp] theorem State.setMeas_cfg (s : State) (x : Meas) : (s.setMeas x).cfg = s.cfg := rfl
@[simp] theorem State.setMeas_line (s : State) (x : Meas) : (s.setMeas x).line = s.line := rfl
@[simp] theorem State.setMeas_out (s : State) (x : Meas) : (s.setMeas x).out = s.out := rfl
@[simp] theorem State.setMeas_table (s : State) (x : Meas) : (s.setMeas x).table = s.table := rfl
@[simp] theorem State.setMeas_control (s : State) (x : Meas) : (s.setMeas x).control = s.control := rfl
@[simp] theorem State.setMeas_engine (s : State) (x : Meas) : (s.setMeas x).engine = s.engine := rfl
@[simp] theorem State.setMeas_meas (s : State) (x : Meas) : (s.setMeas x).meas = x := rfl
@[simp] theorem State.setMeas_load (s : State) (x : Meas) : (s.setMeas x).load = s.load := rfl
@[simp] theorem State.setMeas_fault (s : State) (x : Meas) : (s.setMeas x).fault = s.fault := rfl
@[simp] theorem State.setMeas_port (s : State) (x : Meas) : (s.setMeas x).port = s.port := rfl

@[simp] theorem State.setLoad_pending (s : State) (x : Load) : (s.setLoad x).pending = s.pending := rfl
@[simp] theorem State.setLoad_free (s : State) (x : Load) : (s.setLoad x).free = s.free := rfl
@[simp] theorem State.setLoad_cfg (s : State) (x : Load) : (s.setLoad x).cfg = s.cfg := rfl
@[simp] theorem State.setLoad_line (s : State) (x : Load) : (s.setLoad x).line = s.line := rfl
@[simp] theorem State.setLoad_out (s : State) (x : Load) : (s.setLoad x).out = s.out := rfl
@[simp] theorem State.setLoad_table (s : State) (x : Load) : (s.setLoad x).table = s.table := rfl
@[simp] theorem State.setLoad_control (s : State) (x : Load) : (s.setLoad x).control = s.control := rfl
@[simp] theorem State.setLoad_engine (s : State) (x : Load) : (s.setLoad x).engine = s.engine := rfl
@[simp] theorem State.setLoad_meas (s : State) (x : Load) : (s.setLoad x).meas = s.meas := rfl
@[simp] theorem State.setLoad_load (s : State) (x : Load) : (s.setLoad x).load = x := rfl
@[simp] theorem State.setLoad_fault (s : State) (x : Load) : (s.setLoad x).fault = s.fault := rfl
@[simp] theorem State.setLoad_port (s : State) (x : Load) : (s.setLoad x).port = s.port := rfl

@[simp] theorem State.setFault_pending (s : State) (x : Option FaultRecord) : (s.setFault x).pending = s.pending := rfl
@[simp] theorem State.setFault_free (s : State) (x : Option FaultRecord) : (s.setFault x).free = s.free := rfl
@[simp] theorem State.setFault_cfg (s : State) (x : Option FaultRecord) : (s.setFault x).cfg = s.cfg := rfl
@[simp] theorem State.setFault_line (s : State) (x : Option FaultRecord) : (s.setFault x).line = s.line := rfl
@[simp] theorem State.setFault_out (s : State) (x : Option FaultRecord) : (s.setFault x).out = s.out := rfl
@[simp] theorem State.setFault_table (s : State) (x : Option FaultRecord) : (s.setFault x).table = s.table := rfl
@[simp] theorem State.setFault_control (s : State) (x : Option FaultRecord) : (s.setFault x).control = s.control := rfl
@[simp] theorem State.setFault_engine (s : State) (x : Option FaultRecord) : (s.setFault x).engine = s.engine := rfl
@[simp] theorem State.setFault_meas (s : State) (x : Option FaultRecord) : (s.setFault x).meas = s.meas := rfl
@[simp] theorem State.setFault_load (s : State) (x : Option FaultRecord) : (s.setFault x).load = s.load := rfl
@[simp] theorem State.setFault_fault (s : State) (x : Option FaultRecord) : (s.setFault x).fault = x := rfl
@[simp] theorem State.setFault_port (s : State) (x : Option FaultRecord) : (s.setFault x).port = s.port := rfl

@[simp] theorem State.setPort_pending (s : State) (x : Port) : (s.setPort x).pending = s.pending := rfl
@[simp] theorem State.setPort_free (s : State) (x : Port) : (s.setPort x).free = s.free := rfl
@[simp] theorem State.setPort_cfg (s : State) (x : Port) : (s.setPort x).cfg = s.cfg := rfl
@[simp] theorem State.setPort_line (s : State) (x : Port) : (s.setPort x).line = s.line := rfl
@[simp] theorem State.setPort_out (s : State) (x : Port) : (s.setPort x).out = s.out := rfl
@[simp] theorem State.setPort_table (s : State) (x : Port) : (s.setPort x).table = s.table := rfl
@[simp] theorem State.setPort_control (s : State) (x : Port) : (s.setPort x).control = s.control := rfl
@[simp] theorem State.setPort_engine (s : State) (x : Port) : (s.setPort x).engine = s.engine := rfl
@[simp] theorem State.setPort_meas (s : State) (x : Port) : (s.setPort x).meas = s.meas := rfl
@[simp] theorem State.setPort_load (s : State) (x : Port) : (s.setPort x).load = s.load := rfl
@[simp] theorem State.setPort_fault (s : State) (x : Port) : (s.setPort x).fault = s.fault := rfl
@[simp] theorem State.setPort_port (s : State) (x : Port) : (s.setPort x).port = x := rfl

/-! What an event and a count leave. -/

@[simp] theorem emit_pending (k : EventKind) (a b c d e : Nat) (s : State) : (emit k a b c d e s).pending = s.pending := rfl
@[simp] theorem emit_free (k : EventKind) (a b c d e : Nat) (s : State) : (emit k a b c d e s).free = s.free := rfl
@[simp] theorem emit_cfg (k : EventKind) (a b c d e : Nat) (s : State) : (emit k a b c d e s).cfg = s.cfg := rfl
@[simp] theorem emit_line (k : EventKind) (a b c d e : Nat) (s : State) : (emit k a b c d e s).line = s.line := rfl
@[simp] theorem emit_out (k : EventKind) (a b c d e : Nat) (s : State) : (emit k a b c d e s).out = s.out := rfl
@[simp] theorem emit_table (k : EventKind) (a b c d e : Nat) (s : State) : (emit k a b c d e s).table = s.table := rfl
@[simp] theorem emit_control (k : EventKind) (a b c d e : Nat) (s : State) : (emit k a b c d e s).control = s.control := rfl
@[simp] theorem emit_engine (k : EventKind) (a b c d e : Nat) (s : State) : (emit k a b c d e s).engine = s.engine := rfl
@[simp] theorem emit_meas (k : EventKind) (a b c d e : Nat) (s : State) : (emit k a b c d e s).meas = s.meas := rfl
@[simp] theorem emit_load (k : EventKind) (a b c d e : Nat) (s : State) : (emit k a b c d e s).load = s.load := rfl
@[simp] theorem emit_fault (k : EventKind) (a b c d e : Nat) (s : State) : (emit k a b c d e s).fault = s.fault := rfl
@[simp] theorem emit_port_code (k : EventKind) (a b c d e : Nat) (s : State) :
    (emit k a b c d e s).port.code = s.port.code := rfl
@[simp] theorem emit_port_result (k : EventKind) (a b c d e : Nat) (s : State) :
    (emit k a b c d e s).port.result = s.port.result := rfl
@[simp] theorem emit_port_taken (k : EventKind) (a b c d e : Nat) (s : State) :
    (emit k a b c d e s).port.taken = s.port.taken := rfl
@[simp] theorem emit_port_param1 (k : EventKind) (a b c d e : Nat) (s : State) :
    (emit k a b c d e s).port.param1 = s.port.param1 := rfl
@[simp] theorem emit_port_param2 (k : EventKind) (a b c d e : Nat) (s : State) :
    (emit k a b c d e s).port.param2 = s.port.param2 := rfl
@[simp] theorem emit_port_staging (k : EventKind) (a b c d e : Nat) (s : State) :
    (emit k a b c d e s).port.staging = s.port.staging := rfl
@[simp] theorem emit_port_txn (k : EventKind) (a b c d e : Nat) (s : State) :
    (emit k a b c d e s).port.txn = s.port.txn := rfl
@[simp] theorem emit_port_sdo (k : EventKind) (a b c d e : Nat) (s : State) :
    (emit k a b c d e s).port.sdo = s.port.sdo := rfl
@[simp] theorem emit_port_view (k : EventKind) (a b c d e : Nat) (s : State) :
    (emit k a b c d e s).port.view = s.port.view := rfl
@[simp] theorem emit_port_counters (k : EventKind) (a b c d e : Nat) (s : State) :
    (emit k a b c d e s).port.counters = s.port.counters := rfl
@[simp] theorem emit_ring (k : EventKind) (a b c d e : Nat) (s : State) :
    (emit k a b c d e s).port.ring = s.port.ring.after k a b c d e := rfl
@[simp] theorem emit_counter (k : EventKind) (a b c d e : Nat) (s : State) (x : Counter) :
    (emit k a b c d e s).counter x = s.counter x := rfl

@[simp] theorem bump_pending (c : Counter) (s : State) : (bump c s).pending = s.pending := rfl
@[simp] theorem bump_free (c : Counter) (s : State) : (bump c s).free = s.free := rfl
@[simp] theorem bump_cfg (c : Counter) (s : State) : (bump c s).cfg = s.cfg := rfl
@[simp] theorem bump_line (c : Counter) (s : State) : (bump c s).line = s.line := rfl
@[simp] theorem bump_out (c : Counter) (s : State) : (bump c s).out = s.out := rfl
@[simp] theorem bump_table (c : Counter) (s : State) : (bump c s).table = s.table := rfl
@[simp] theorem bump_control (c : Counter) (s : State) : (bump c s).control = s.control := rfl
@[simp] theorem bump_engine (c : Counter) (s : State) : (bump c s).engine = s.engine := rfl
@[simp] theorem bump_meas (c : Counter) (s : State) : (bump c s).meas = s.meas := rfl
@[simp] theorem bump_load (c : Counter) (s : State) : (bump c s).load = s.load := rfl
@[simp] theorem bump_fault (c : Counter) (s : State) : (bump c s).fault = s.fault := rfl
@[simp] theorem bump_port_code (c : Counter) (s : State) : (bump c s).port.code = s.port.code := rfl
@[simp] theorem bump_port_result (c : Counter) (s : State) : (bump c s).port.result = s.port.result := rfl
@[simp] theorem bump_port_taken (c : Counter) (s : State) : (bump c s).port.taken = s.port.taken := rfl
@[simp] theorem bump_port_param1 (c : Counter) (s : State) : (bump c s).port.param1 = s.port.param1 := rfl
@[simp] theorem bump_port_param2 (c : Counter) (s : State) : (bump c s).port.param2 = s.port.param2 := rfl
@[simp] theorem bump_port_staging (c : Counter) (s : State) : (bump c s).port.staging = s.port.staging := rfl
@[simp] theorem bump_port_txn (c : Counter) (s : State) : (bump c s).port.txn = s.port.txn := rfl
@[simp] theorem bump_port_sdo (c : Counter) (s : State) : (bump c s).port.sdo = s.port.sdo := rfl
@[simp] theorem bump_port_view (c : Counter) (s : State) : (bump c s).port.view = s.port.view := rfl
@[simp] theorem bump_port_ring (c : Counter) (s : State) : (bump c s).port.ring = s.port.ring := rfl
theorem Counter.number_inj {c d : Counter} (h : c.number.val = d.number.val) : c = d := by
  revert h; cases c <;> cases d <;> decide
@[simp] theorem bump_counter (c d : Counter) (s : State) :
    (bump c s).counter d = if d = c then satInc (s.counter c) else s.counter d := by
  show (s.port.counters.set c.number.val (satInc s.port.counters[c.number.val]))[d.number.val] = _
  split
  case isTrue h => subst h; exact Vector.getElem_set_self _
  case isFalse h => exact Vector.getElem_set_ne _ _ (fun e => h (Counter.number_inj e.symm))

end Sys2Proof.Machine
end

