-- ==== Sys2Proof/Laws/Outside.lean ====
section
/-! SUPPORT. What the share-line side and the engine leave alone: the queue, the free values, the configuration, the
measurement, the load outputs, and of the port everything but the ring and the counters. One lemma per operation. -/

namespace Sys2Proof.Machine

/-- A state with the share-line side, the engine, the Fault Record, the ring and the counters masked. -/
def State.outside (s : State) : State :=
  { s with line := Line.reset, out := OutList.reset, table := Table.reset, control := Control.reset,
           engine := Engine.reset, fault := none,
           port := { s.port with ring := Ring.reset, counters := Vector.replicate 16 0 } }

theorem outside_pending {s t : State} (h : t.outside = s.outside) : t.pending = s.pending := by
  have := congrArg (fun x : State => x.pending) h; exact this
theorem outside_free {s t : State} (h : t.outside = s.outside) : t.free = s.free := by
  have := congrArg (fun x : State => x.free) h; exact this
theorem outside_cfg {s t : State} (h : t.outside = s.outside) : t.cfg = s.cfg := by
  have := congrArg (fun x : State => x.cfg) h; exact this
theorem outside_meas {s t : State} (h : t.outside = s.outside) : t.meas = s.meas := by
  have := congrArg (fun x : State => x.meas) h; exact this
theorem outside_load {s t : State} (h : t.outside = s.outside) : t.load = s.load := by
  have := congrArg (fun x : State => x.load) h; exact this
theorem outside_staging {s t : State} (h : t.outside = s.outside) : t.port.staging = s.port.staging := by
  have := congrArg (fun x : State => x.port.staging) h; exact this
theorem outside_code {s t : State} (h : t.outside = s.outside) : t.port.code = s.port.code := by
  have := congrArg (fun x : State => x.port.code) h; exact this
theorem outside_taken {s t : State} (h : t.outside = s.outside) : t.port.taken = s.port.taken := by
  have := congrArg (fun x : State => x.port.taken) h; exact this
theorem outside_txn {s t : State} (h : t.outside = s.outside) : t.port.txn = s.port.txn := by
  have := congrArg (fun x : State => x.port.txn) h; exact this
theorem outside_result {s t : State} (h : t.outside = s.outside) : t.port.result = s.port.result := by
  have := congrArg (fun x : State => x.port.result) h; exact this
theorem outside_param1 {s t : State} (h : t.outside = s.outside) : t.port.param1 = s.port.param1 := by
  have := congrArg (fun x : State => x.port.param1) h; exact this
theorem outside_param2 {s t : State} (h : t.outside = s.outside) : t.port.param2 = s.port.param2 := by
  have := congrArg (fun x : State => x.port.param2) h; exact this
theorem outside_sdo {s t : State} (h : t.outside = s.outside) : t.port.sdo = s.port.sdo := by
  have := congrArg (fun x : State => x.port.sdo) h; exact this
theorem outside_view {s t : State} (h : t.outside = s.outside) : t.port.view = s.port.view := by
  have := congrArg (fun x : State => x.port.view) h; exact this

@[simp] theorem State.setLine_outside (s : State) (x : Line) : (s.setLine x).outside = s.outside := rfl
@[simp] theorem State.setOut_outside (s : State) (x : OutList) : (s.setOut x).outside = s.outside := rfl
@[simp] theorem State.setTable_outside (s : State) (x : Table) : (s.setTable x).outside = s.outside := rfl
@[simp] theorem State.setControl_outside (s : State) (x : Control) : (s.setControl x).outside = s.outside := rfl
@[simp] theorem State.setEngine_outside (s : State) (x : Engine) : (s.setEngine x).outside = s.outside := rfl
@[simp] theorem State.setFault_outside (s : State) (x : Option FaultRecord) : (s.setFault x).outside = s.outside := rfl
@[simp] theorem emit_outside (k : EventKind) (a b c d e : Nat) (s : State) : (emit k a b c d e s).outside = s.outside := rfl
@[simp] theorem bump_outside (c : Counter) (s : State) : (bump c s).outside = s.outside := rfl

@[simp] theorem post_outside (id : SlotId) (c : Content) (s : State) : (post id c s).outside = s.outside := by
  unfold post; (repeat' split) <;> simp
@[simp] theorem postExpire_outside (t : Nat) (q : Byte) (s : State) : (postExpire t q s).outside = s.outside := by
  unfold postExpire; (repeat' split) <;> simp
@[simp] theorem postIntent_outside (c : Content) (s : State) : (postIntent c s).outside = s.outside := by
  unfold postIntent; (repeat' split) <;> simp
@[simp] theorem postClaim_outside (s : State) : (postClaim s).outside = s.outside := by
  unfold postClaim; simp
@[simp] theorem giveUpShare_outside (s : State) : (giveUpShare s).outside = s.outside := by
  unfold giveUpShare; (repeat' split) <;> simp
@[simp] theorem enterFaulted_outside (c : FaultCode) (b : FaultSub) (s : State) : (enterFaulted c b s).outside = s.outside := by
  unfold enterFaulted; simp
@[simp] theorem raiseFault_outside (c : FaultCode) (s : State) : (raiseFault c s).outside = s.outside := by
  unfold raiseFault; (repeat' split) <;> simp
@[simp] theorem laterFault_outside (c : FaultCode) (s : State) : (laterFault c s).outside = s.outside := by
  unfold laterFault; simp
@[simp] theorem enterHeld_outside (r : HoldReason) (l : Option Substate) (p : Option Nat) (s : State) : (enterHeld r l p s).outside = s.outside := by
  unfold enterHeld; (try simp only []); (repeat' split) <;> simp
@[simp] theorem addReason_outside (r : HoldReason) (s : State) : (addReason r s).outside = s.outside := by
  unfold addReason; (try simp only []); (repeat' split) <;> simp
@[simp] theorem setSub_outside (b : Substate) (s : State) : (setSub b s).outside = s.outside := by
  unfold setSub; simp
@[simp] theorem claimPhase_outside (s : State) : (claimPhase s).outside = s.outside := by
  unfold claimPhase; (try simp only []); (repeat' split) <;> simp
@[simp] theorem entryTests_outside (l : Option Substate) (s : State) : (entryTests l s).outside = s.outside := by
  unfold entryTests; (try simp only []); (repeat' split) <;> simp
@[simp] theorem enterFresh_outside (i : Nat) (l : Option Substate) (s : State) : (enterFresh i l s).outside = s.outside := by
  unfold enterFresh; simp
@[simp] theorem leaveHeld_outside (s : State) : (leaveHeld s).outside = s.outside := by
  unfold leaveHeld; simp
@[simp] theorem takeReason_outside (r : HoldReason) (s : State) : (takeReason r s).outside = s.outside := by
  unfold takeReason; simp
@[simp] theorem removeReason_outside (r : HoldReason) (s : State) : (removeReason r s).outside = s.outside := by
  unfold removeReason; (try simp only []); (repeat' split) <;> simp
@[simp] theorem endPurge_outside (s : State) : (endPurge s).outside = s.outside := by
  unfold endPurge; simp
@[simp] theorem noticeAdmitted_outside (b : Substate) (s : State) : (noticeAdmitted b s).outside = s.outside := by
  unfold noticeAdmitted; (try simp only []); (repeat' split) <;> simp
@[simp] theorem noticeWaiting_outside (b : Substate) (s : State) : (noticeWaiting b s).outside = s.outside := by
  unfold noticeWaiting; (repeat' split) <;> simp
@[simp] theorem noticeNone_outside (b : Substate) (s : State) : (noticeNone b s).outside = s.outside := by
  unfold noticeNone; (repeat' split) <;> simp
@[simp] theorem noticeHeld_outside (s : State) : (noticeHeld s).outside = s.outside := by
  unfold noticeHeld; (repeat' split) <;> simp
@[simp] theorem notify_outside (n : Notice) (s : State) : (notify n s).outside = s.outside := by
  unfold notify; (try simp only []); (repeat' split) <;> simp
@[simp] theorem memberEntered_outside (s : State) : (memberEntered s).outside = s.outside := by
  unfold memberEntered; (repeat' split) <;> simp
@[simp] theorem completeCycle_outside (s : State) : (completeCycle s).outside = s.outside := by
  unfold completeCycle; simp
@[simp] theorem endPhase_outside (o : Nat) (s : State) : (endPhase o s).outside = s.outside := by
  unfold endPhase; (try simp only []); (repeat' split) <;> simp
@[simp] theorem durationReached_outside (s : State) : (durationReached s).outside = s.outside := by
  unfold durationReached; (try simp only []); (repeat' split) <;> simp
@[simp] theorem limitReached_outside (s : State) : (limitReached s).outside = s.outside := by
  unfold limitReached; (try simp only []); (repeat' split) <;> simp
@[simp] theorem doorOpened_outside (s : State) : (doorOpened s).outside = s.outside := by
  unfold doorOpened; (repeat' split) <;> simp
@[simp] theorem doorClosed_outside (s : State) : (doorClosed s).outside = s.outside := by
  unfold doorClosed; (try simp only []); (repeat' split) <;> simp
@[simp] theorem purgeRanOut_outside (s : State) : (purgeRanOut s).outside = s.outside := by
  unfold purgeRanOut; (repeat' split) <;> simp
@[simp] theorem stationEvent_outside (b : StationState) (c : Cause) (q : Nat) (s : State) : (stationEvent b c q s).outside = s.outside := by
  unfold stationEvent; simp
@[simp] theorem commandDone_outside (a : Awaited) (c : Cause) (s : State) : (commandDone a c s).outside = s.outside := by
  unfold commandDone; simp
@[simp] theorem completeJoin_outside (c : Cause) (s : State) : (completeJoin c s).outside = s.outside := by
  unfold completeJoin; (repeat' split) <;> simp
@[simp] theorem grantLost_outside (h : Holding) (c : Cause) (s : State) : (grantLost h c s).outside = s.outside := by
  unfold grantLost; (repeat' split) <;> simp
@[simp] theorem clearTable_outside (s : State) : (clearTable s).outside = s.outside := by
  unfold clearTable; simp
@[simp] theorem emptyList_outside (s : State) : (emptyList s).outside = s.outside := by
  unfold emptyList; simp
@[simp] theorem resetList_outside (s : State) : (resetList s).outside = s.outside := by
  unfold resetList; simp
@[simp] theorem postRollcall_outside (s : State) : (postRollcall s).outside = s.outside := by
  unfold postRollcall; simp
@[simp] theorem enterGathering_outside (c : Cause) (q : Nat) (s : State) : (enterGathering c q s).outside = s.outside := by
  unfold enterGathering; simp
@[simp] theorem resync_outside (c : Cause) (s : State) : (resync c s).outside = s.outside := by
  unfold resync; simp
@[simp] theorem restartGathering_outside (c : Cause) (s : State) : (restartGathering c s).outside = s.outside := by
  unfold restartGathering; simp
@[simp] theorem isolate_outside (c : Cause) (s : State) : (isolate c s).outside = s.outside := by
  unfold isolate; simp
@[simp] theorem goOffline_outside (c : Cause) (s : State) : (goOffline c s).outside = s.outside := by
  unfold goOffline; (try simp only []); (repeat' split) <;> simp
@[simp] theorem postOwedRenewal_outside (s : State) : (postOwedRenewal s).outside = s.outside := by
  unfold postOwedRenewal; (repeat' split) <;> simp
@[simp] theorem enterMember_outside (s : State) : (enterMember s).outside = s.outside := by
  unfold enterMember; (try simp only []); (repeat' split) <;> simp
@[simp] theorem windowClosed_outside (s : State) : (windowClosed s).outside = s.outside := by
  unfold windowClosed; (repeat' split) <;> simp
@[simp] theorem failed_outside (c : Cause) (s : State) : (failed c s).outside = s.outside := by
  unfold failed; (repeat' split) <;> simp
@[simp] theorem reportObjection_outside (s : State) : (reportObjection s).outside = s.outside := by
  unfold reportObjection; (try simp only []); (repeat' split) <;> simp
@[simp] theorem onFinding_outside (c : Cause) (s : State) : (onFinding c s).outside = s.outside := by
  unfold onFinding; (repeat' split) <;> simp
@[simp] theorem rejoinTimeout_outside (s : State) : (rejoinTimeout s).outside = s.outside := by
  unfold rejoinTimeout; (try simp only []); (repeat' split) <;> simp
@[simp] theorem membershipTimeout_outside (s : State) : (membershipTimeout s).outside = s.outside := by
  unfold membershipTimeout; (try simp only []); (repeat' split) <;> simp
@[simp] theorem reportDrop_outside (c : Content) (s : State) : (reportDrop c s).outside = s.outside := by
  unfold reportDrop; (repeat' split) <;> simp
@[simp] theorem dropEntry_outside (i : SlotId) (e : Entry) (c : Nat) (s : State) : (dropEntry i e c s).outside = s.outside := by
  unfold dropEntry; (try simp only []); (repeat' split) <;> simp
@[simp] theorem listFailed_outside (c : Nat) (s : State) : (listFailed c s).outside = s.outside := by
  unfold listFailed; (try simp only []); (repeat' split) <;> simp
@[simp] theorem listApplied_outside (s : State) : (listApplied s).outside = s.outside := by
  unfold listApplied; (try simp only []); (repeat' split) <;> simp
@[simp] theorem sendStart_outside (s : State) : (sendStart s).outside = s.outside := by
  unfold sendStart; (try simp only []); (repeat' split) <;> simp
@[simp] theorem closeWindow_outside (s : State) : (closeWindow s).outside = s.outside := by
  unfold closeWindow; (try simp only []); (repeat' split) <;> simp
@[simp] theorem hearStart_outside (s : State) : (hearStart s).outside = s.outside := rfl
@[simp] theorem atIdle_outside (d : Bool) (s : State) : (atIdle d s).outside = s.outside := by
  unfold atIdle; (try simp only []); (repeat' split) <;> simp
@[simp] theorem grant_outside (s : State) : (grant s).outside = s.outside := by
  unfold grant; (repeat' split) <;> simp
@[simp] theorem noticeHeard_outside (w : Bool) (s : State) : (noticeHeard w s).outside = s.outside := by
  unfold noticeHeard; (repeat' split) <;> simp
@[simp] theorem noticeOwn_outside (r : Bool) (s : State) : (noticeOwn r s).outside = s.outside := by
  unfold noticeOwn; (repeat' split) <;> simp
@[simp] theorem ownOutcome_outside (k : FrameKind) (r : Bool) (q : Byte) (s : State) : (ownOutcome k r q s).outside = s.outside := by
  unfold ownOutcome; (try simp only []); (repeat' split) <;> simp
@[simp] theorem withdraw_outside (i : Nat) (s : State) : (withdraw i s).outside = s.outside := by
  unfold withdraw; simp
@[simp] theorem removePeer_outside (i c : Nat) (s : State) : (removePeer i c s).outside = s.outside := by
  unfold removePeer; simp
@[simp] theorem staleExpire_outside (t : Nat) (w : Bool) (s : State) : (staleExpire t w s).outside = s.outside := by
  unfold staleExpire; (try simp only []); (repeat' split) <;> simp
@[simp] theorem applyExpire_outside (t : Nat) (q : Byte) (w : Bool) (s : State) : (applyExpire t q w s).1.outside = s.outside := by
  unfold applyExpire; (repeat' split) <;> simp
@[simp] theorem budgetRejected_outside (k : FrameKind) (i : Nat) (p : Payload) (s : State) : (budgetRejected k i p s).outside = s.outside := by
  unfold budgetRejected; simp
@[simp] theorem addPeer_outside (k : FrameKind) (i : Nat) (q : Byte) (h : Holding) (s : State) : (addPeer k i q h s).outside = s.outside := by
  unfold addPeer; simp
@[simp] theorem rollcallPeer_outside (f : Frame) (s : State) : (rollcallPeer f s).outside = s.outside := by
  unfold rollcallPeer; (try simp only []); (repeat' split) <;> simp
@[simp] theorem openWindow_outside (s : State) : (openWindow s).outside = s.outside := by
  unfold openWindow; (try simp only []); (repeat' split) <;> simp
@[simp] theorem standingKnown_outside (f : Frame) (s : State) : (standingKnown f s).1.outside = s.outside := by
  unfold standingKnown; (try simp only []); (repeat' split) <;> simp
@[simp] theorem addGathered_outside (f : Frame) (s : State) : (addGathered f s).1.outside = s.outside := by
  unfold addGathered; (try simp only []); (repeat' split) <;> simp
@[simp] theorem standingUnknown_outside (f : Frame) (s : State) : (standingUnknown f s).1.outside = s.outside := by
  unfold standingUnknown; (try simp only []); (repeat' split) <;> simp
@[simp] theorem applyHeard_outside (f : Frame) (s : State) : (applyHeard f s).1.outside = s.outside := by
  unfold applyHeard; (try simp only []); (repeat' split) <;> simp
@[simp] theorem takeHeardCore_outside (f : Frame) (s : State) : (takeHeardCore f s).1.outside = s.outside := by
  unfold takeHeardCore; (try simp only []); (repeat' split) <;> simp

/-- The heard frame of any kind. -/
@[simp] theorem takeHeard_outside (f : Frame) (s : State) : (takeHeard f s).outside = s.outside := by
  unfold takeHeard
  have h := takeHeardCore_outside f s
  revert h
  generalize takeHeardCore f s = r
  intro h
  rcases r with ⟨t, _ | c⟩ <;> simpa using h
@[simp] theorem renewOwn_outside (q : Byte) (s : State) : (renewOwn q s).outside = s.outside := by
  unfold renewOwn; (try simp only []); (repeat' split) <;> simp
@[simp] theorem markAnswered_outside (s : State) : (markAnswered s).outside = s.outside := by
  unfold markAnswered; (try simp only []); (repeat' split) <;> simp
@[simp] theorem takeOwn_outside (f : Frame) (s : State) : (takeOwn f s).outside = s.outside := by
  unfold takeOwn
  simp only []
  cases f.kind <;> simp
  have h := applyExpire_outside f.payload.p0.toNat f.payload.p1 false (renewOwn f.seq s)
  revert h
  generalize applyExpire f.payload.p0.toNat f.payload.p1 false (renewOwn f.seq s) = r
  intro h
  rcases r with ⟨t, _ | c⟩ <;> simpa using h
@[simp] theorem countObjection_outside (s : State) : (countObjection s).outside = s.outside := by
  unfold countObjection; simp
@[simp] theorem deliver_outside (o : Bool) (f : Frame) (s : State) : (deliver o f s).outside = s.outside := by
  unfold deliver; (try simp only []); (repeat' split) <;> simp
@[simp] theorem heardEnd_outside (k : BitVec 4) (r : Reading) (v : Bool) (s : State) : (heardEnd k r v s).outside = s.outside := by
  unfold heardEnd; (try simp only []); (repeat' split) <;> simp
@[simp] theorem ownOutcomeReport_outside (f : Frame) (p a : Bool) (s : State) : (ownOutcomeReport f p a s).outside = s.outside := by
  unfold ownOutcomeReport; (try simp only []); (repeat' split) <;> simp
@[simp] theorem loseArbitration_outside (k : List Bool) (s : State) : (loseArbitration k s).outside = s.outside := by
  unfold loseArbitration; simp
@[simp] theorem idleReached_outside (d : Bool) (s : State) : (idleReached d s).outside = s.outside := by
  unfold idleReached; (repeat' split) <;> simp
@[simp] theorem falseStarted_outside (s : State) : (falseStarted s).outside = s.outside := by
  unfold falseStarted; (try simp only []); (repeat' split) <;> simp
@[simp] theorem arbitrationLostAt_outside (b : Nat) (s : State) : (arbitrationLostAt b s).outside = s.outside := by
  unfold arbitrationLostAt; (repeat' split) <;> simp
@[simp] theorem frameAbandoned_outside (d : Bool) (s : State) : (frameAbandoned d s).outside = s.outside := by
  unfold frameAbandoned; (repeat' split) <;> simp
@[simp] theorem peerLeaseOut_outside (i : Nat) (s : State) : (peerLeaseOut i s).outside = s.outside := by
  unfold peerLeaseOut; (repeat' split) <;> simp
@[simp] theorem renewalOut_outside (s : State) : (renewalOut s).outside = s.outside := by
  unfold renewalOut; (try simp only []); (repeat' split) <;> simp
@[simp] theorem selfLeaseOut_outside (s : State) : (selfLeaseOut s).outside = s.outside := by
  unfold selfLeaseOut; (try simp only []); (repeat' split) <;> simp
@[simp] theorem windowOut_outside (s : State) : (windowOut s).outside = s.outside := by
  unfold windowOut; (try simp only []); (repeat' split) <;> simp

end Sys2Proof.Machine
end

