-- ==== Sys2Proof/Laws/EngineLaws.lean ====
section
/-! SUPPORT. The engine's side of the state, its engine and Fault Record: which operations leave it alone, and that every
operation of the engine keeps it consistent (R123, R174). -/

namespace Sys2Proof.Machine

/-- The engine with the Fault Record. -/
def State.engineSide (s : State) : Engine × Option FaultRecord := (s.engine, s.fault)

/-- Consistency depends on the engine's side only. -/
theorem engineInv_of_side {s t : State} (h : t.engineSide = s.engineSide) (hs : EngineInv s) : EngineInv t := by
  simp only [State.engineSide, Prod.mk.injEq] at h
  obtain ⟨he, hf⟩ := h
  exact ⟨by rw [he, hf]; exact hs.1, by rw [he]; exact hs.2, by rw [he]; exact hs.3⟩

@[simp] theorem State.setLine_engineSide (s : State) (x : Line) : (s.setLine x).engineSide = s.engineSide := rfl
@[simp] theorem State.setOut_engineSide (s : State) (x : OutList) : (s.setOut x).engineSide = s.engineSide := rfl
@[simp] theorem State.setTable_engineSide (s : State) (x : Table) : (s.setTable x).engineSide = s.engineSide := rfl
@[simp] theorem State.setControl_engineSide (s : State) (x : Control) : (s.setControl x).engineSide = s.engineSide := rfl
@[simp] theorem State.setMeas_engineSide (s : State) (x : Meas) : (s.setMeas x).engineSide = s.engineSide := rfl
@[simp] theorem State.setLoad_engineSide (s : State) (x : Load) : (s.setLoad x).engineSide = s.engineSide := rfl
@[simp] theorem State.setPort_engineSide (s : State) (x : Port) : (s.setPort x).engineSide = s.engineSide := rfl
@[simp] theorem State.setCfg_engineSide (s : State) (x : Settings) : (s.setCfg x).engineSide = s.engineSide := rfl
@[simp] theorem State.setFree_engineSide (s : State) (x : Nat) : (s.setFree x).engineSide = s.engineSide := rfl
@[simp] theorem State.setPending_engineSide (s : State) (x : List Instr) : (s.setPending x).engineSide = s.engineSide := rfl
@[simp] theorem emit_engineSide (k : EventKind) (a b c d e : Nat) (s : State) :
    (emit k a b c d e s).engineSide = s.engineSide := rfl
@[simp] theorem bump_engineSide (c : Counter) (s : State) : (bump c s).engineSide = s.engineSide := rfl
@[simp] theorem refresh_engineSide (s : State) : (refresh s).engineSide = s.engineSide := rfl

@[simp] theorem post_engineSide (id : SlotId) (c : Content) (s : State) : (post id c s).engineSide = s.engineSide := by
  unfold post; (repeat' split) <;> simp
@[simp] theorem postExpire_engineSide (t : Nat) (q : Byte) (s : State) : (postExpire t q s).engineSide = s.engineSide := by
  unfold postExpire; (repeat' split) <;> simp
@[simp] theorem postIntent_engineSide (c : Content) (s : State) : (postIntent c s).engineSide = s.engineSide := by
  unfold postIntent; (repeat' split) <;> simp
@[simp] theorem postClaim_engineSide (s : State) : (postClaim s).engineSide = s.engineSide := by
  unfold postClaim; simp
@[simp] theorem giveUpShare_engineSide (s : State) : (giveUpShare s).engineSide = s.engineSide := by
  unfold giveUpShare; (repeat' split) <;> simp
@[simp] theorem stationEvent_engineSide (b : StationState) (c : Cause) (q : Nat) (s : State) : (stationEvent b c q s).engineSide = s.engineSide := by
  unfold stationEvent; simp
@[simp] theorem commandDone_engineSide (a : Awaited) (c : Cause) (s : State) : (commandDone a c s).engineSide = s.engineSide := by
  unfold commandDone; simp
@[simp] theorem completeJoin_engineSide (c : Cause) (s : State) : (completeJoin c s).engineSide = s.engineSide := by
  unfold completeJoin; (repeat' split) <;> simp
@[simp] theorem grantLost_engineSide (h : Holding) (c : Cause) (s : State) : (grantLost h c s).engineSide = s.engineSide := by
  unfold grantLost; (repeat' split) <;> simp
@[simp] theorem emptyList_engineSide (s : State) : (emptyList s).engineSide = s.engineSide := by
  unfold emptyList; simp
@[simp] theorem resetList_engineSide (s : State) : (resetList s).engineSide = s.engineSide := by
  unfold resetList; simp
@[simp] theorem postRollcall_engineSide (s : State) : (postRollcall s).engineSide = s.engineSide := by
  unfold postRollcall; simp
@[simp] theorem postOwedRenewal_engineSide (s : State) : (postOwedRenewal s).engineSide = s.engineSide := by
  unfold postOwedRenewal; (repeat' split) <;> simp
@[simp] theorem membershipTimeout_engineSide (s : State) : (membershipTimeout s).engineSide = s.engineSide := by
  unfold membershipTimeout; (try simp only []); (repeat' split) <;> simp
@[simp] theorem listApplied_engineSide (s : State) : (listApplied s).engineSide = s.engineSide := by
  unfold listApplied; (try simp only []); (repeat' split) <;> simp
@[simp] theorem sendStart_engineSide (s : State) : (sendStart s).engineSide = s.engineSide := by
  unfold sendStart; (try simp only []); (repeat' split) <;> simp
@[simp] theorem withdraw_engineSide (i : Nat) (s : State) : (withdraw i s).engineSide = s.engineSide := by
  unfold withdraw; simp
@[simp] theorem removePeer_engineSide (i c : Nat) (s : State) : (removePeer i c s).engineSide = s.engineSide := by
  unfold removePeer; simp
@[simp] theorem staleExpire_engineSide (t : Nat) (w : Bool) (s : State) : (staleExpire t w s).engineSide = s.engineSide := by
  unfold staleExpire; (try simp only []); (repeat' split) <;> simp
@[simp] theorem applyExpire_engineSide (t : Nat) (q : Byte) (w : Bool) (s : State) : (applyExpire t q w s).1.engineSide = s.engineSide := by
  unfold applyExpire; (repeat' split) <;> simp
@[simp] theorem budgetRejected_engineSide (k : FrameKind) (i : Nat) (p : Payload) (s : State) : (budgetRejected k i p s).engineSide = s.engineSide := by
  unfold budgetRejected; simp
@[simp] theorem addPeer_engineSide (k : FrameKind) (i : Nat) (q : Byte) (h : Holding) (s : State) : (addPeer k i q h s).engineSide = s.engineSide := by
  unfold addPeer; simp
@[simp] theorem rollcallPeer_engineSide (f : Frame) (s : State) : (rollcallPeer f s).engineSide = s.engineSide := by
  unfold rollcallPeer; (try simp only []); (repeat' split) <;> simp
@[simp] theorem openWindow_engineSide (s : State) : (openWindow s).engineSide = s.engineSide := by
  unfold openWindow; (try simp only []); (repeat' split) <;> simp
@[simp] theorem standingKnown_engineSide (f : Frame) (s : State) : (standingKnown f s).1.engineSide = s.engineSide := by
  unfold standingKnown; (try simp only []); (repeat' split) <;> simp
@[simp] theorem addGathered_engineSide (f : Frame) (s : State) : (addGathered f s).1.engineSide = s.engineSide := by
  unfold addGathered; (try simp only []); (repeat' split) <;> simp
@[simp] theorem standingUnknown_engineSide (f : Frame) (s : State) : (standingUnknown f s).1.engineSide = s.engineSide := by
  unfold standingUnknown; (try simp only []); (repeat' split) <;> simp
@[simp] theorem applyHeard_engineSide (f : Frame) (s : State) : (applyHeard f s).1.engineSide = s.engineSide := by
  unfold applyHeard; (try simp only []); (repeat' split) <;> simp
@[simp] theorem takeHeardCore_engineSide (f : Frame) (s : State) : (takeHeardCore f s).1.engineSide = s.engineSide := by
  unfold takeHeardCore; (try simp only []); (repeat' split) <;> simp
@[simp] theorem renewOwn_engineSide (q : Byte) (s : State) : (renewOwn q s).engineSide = s.engineSide := by
  unfold renewOwn; (try simp only []); (repeat' split) <;> simp
@[simp] theorem markAnswered_engineSide (s : State) : (markAnswered s).engineSide = s.engineSide := by
  unfold markAnswered; (try simp only []); (repeat' split) <;> simp
@[simp] theorem falseStarted_engineSide (s : State) : (falseStarted s).engineSide = s.engineSide := by
  unfold falseStarted; (try simp only []); (repeat' split) <;> simp
@[simp] theorem peerLeaseOut_engineSide (i : Nat) (s : State) : (peerLeaseOut i s).engineSide = s.engineSide := by
  unfold peerLeaseOut; (repeat' split) <;> simp
@[simp] theorem renewalOut_engineSide (s : State) : (renewalOut s).engineSide = s.engineSide := by
  unfold renewalOut; (try simp only []); (repeat' split) <;> simp
@[simp] theorem windowOut_engineSide (s : State) : (windowOut s).engineSide = s.engineSide := by
  unfold windowOut; (try simp only []); (repeat' split) <;> simp
@[simp] theorem endCounts_engineSide (a b : Bool) (s : State) : (endCounts a b s).engineSide = s.engineSide := by
  unfold endCounts; (try simp only []); (repeat' split) <;> simp
@[simp] theorem endTransaction_engineSide (s : State) : (endTransaction s).engineSide = s.engineSide := by
  unfold endTransaction; (try simp only []); (repeat' split) <;> simp
@[simp] theorem setTxn_engineSide (t : OpenTxn) (s : State) : (setTxn t s).engineSide = s.engineSide := by
  unfold setTxn; simp
@[simp] theorem writeNextOut_engineSide (v : Byte) (s : State) : (writeNextOut v s).engineSide = s.engineSide := by
  unfold writeNextOut; (try simp only []); (repeat' split) <;> simp
@[simp] theorem writeCode_engineSide (v : Byte) (t : OpenTxn) (s : State) : (writeCode v t s).engineSide = s.engineSide := by
  unfold writeCode; (try simp only []); (repeat' split) <;> simp
@[simp] theorem writeRegister_engineSide (a : Nat) (v : Byte) (t : OpenTxn) (s : State) : (writeRegister a v t s).engineSide = s.engineSide := by
  unfold writeRegister; (try simp only []); (repeat' split) <;> simp
@[simp] theorem advanceAddr_engineSide (s : State) : (advanceAddr s).engineSide = s.engineSide := by
  unfold advanceAddr; (repeat' split) <;> simp
@[simp] theorem storeCode_engineSide (c : Byte) (s : State) : (storeCode c s).engineSide = s.engineSide := by
  unfold storeCode; simp
@[simp] theorem answered_engineSide (r : Result) (s : State) : (answered r s).engineSide = s.engineSide := by
  unfold answered; simp
@[simp] theorem complete_engineSide (s : State) : (complete s).engineSide = s.engineSide := by
  unfold complete; (try simp only []); (repeat' split) <;> simp
@[simp] theorem snapshot_engineSide (s : State) : (snapshot s).engineSide = s.engineSide := by
  unfold snapshot; simp
@[simp] theorem clearCounts_engineSide (s : State) : (clearCounts s).engineSide = s.engineSide := by
  unfold clearCounts; simp
@[simp] theorem clearAtTake_engineSide (s : State) : (clearAtTake s).engineSide = s.engineSide := by
  unfold clearAtTake; (try simp only []); (repeat' split) <;> simp
@[simp] theorem storeSample_engineSide (m : Sample) (s : State) : (storeSample m s).engineSide = s.engineSide := by
  unfold storeSample; simp
@[simp] theorem levelLow_engineSide (s : State) : (levelLow s).engineSide = s.engineSide := by
  unfold levelLow; (try simp only []); (repeat' split) <;> simp
@[simp] theorem regulate_engineSide (s : State) : (regulate s).engineSide = s.engineSide := by
  unfold regulate; (repeat' split) <;> simp
@[simp] theorem edgeDoor_engineSide (s : State) : (edgeDoor s).engineSide = s.engineSide := by
  unfold edgeDoor; (try simp only []); (repeat' split) <;> simp

/-! ## The engine's own operations -/

/-- No fault is recorded, no reason held and no purge timer set: the engine's side outside HELD and FAULTED. -/
structure Calm (s : State) : Prop where
  noFault : s.fault = none
  noHolds : s.engine.holds = HoldSet.empty
  noPurge : s.engine.purge = .stopped

theorem calm_of_side {s t : State} (h : t.engineSide = s.engineSide) (hs : Calm s) : Calm t := by
  simp only [State.engineSide, Prod.mk.injEq] at h
  obtain ⟨he, hf⟩ := h
  exact ⟨by rw [hf]; exact hs.1, by rw [he]; exact hs.2, by rw [he]; exact hs.3⟩

theorem HoldSet.eq_empty {h : HoldSet} (hh : h.isEmpty = true) : h = HoldSet.empty := by
  rcases h with ⟨a, b, c⟩
  simp [HoldSet.isEmpty] at hh
  simp [HoldSet.empty, hh]

/-- A consistent engine outside HELD and FAULTED is calm. -/
theorem EngineInv.calm {s : State} (h : EngineInv s) (h1 : s.engine.state ≠ .held) (h2 : s.engine.state ≠ .faulted) :
    Calm s := by
  refine ⟨?_, ?_, ?_⟩
  · have := h.faultMarked
    cases hf : s.fault
    · rfl
    · simp [hf, h2] at this
  · apply HoldSet.eq_empty
    have := h.holdsOnlyHeld
    cases hh : s.engine.holds.isEmpty
    · simp [hh, h1] at this
    · rfl
  · refine Classical.byContradiction fun hp => h1 (h.purgeOnlyDoor hp).1

/-- A calm engine in a state other than HELD and FAULTED is consistent. -/
theorem Calm.inv {s : State} (h : Calm s) (h1 : s.engine.state ≠ .held) (h2 : s.engine.state ≠ .faulted) :
    EngineInv s := by
  refine ⟨?_, ?_, fun hp => absurd h.noPurge hp⟩
  · simp [h.noFault, h2]
  · simp [h.noHolds, h1, HoldSet.isEmpty, HoldSet.empty]

/-- HELD with a reason in the set and no fault. -/
theorem EngineInv.heldFault {s : State} (h : EngineInv s) (h1 : s.engine.state = .held) : s.fault = none := by
  have := h.faultMarked
  cases hf : s.fault
  · rfl
  · simp [hf, h1] at this

theorem setSub_inv {s : State} (b : Substate) (h : Calm s) : EngineInv (setSub b s) :=
  Calm.inv ⟨h.1, h.2, h.3⟩ (by simp [setSub]) (by simp [setSub])

theorem enterFaulted_inv (c : FaultCode) (b : FaultSub) (s : State) : EngineInv (enterFaulted c b s) := by
  unfold enterFaulted
  simp only []
  refine engineInv_of_side (s := (s.setFault (some (s.faultRecord c b))).setEngine s.engine.faulted) (by simp) ?_
  refine ⟨?_, ?_, ?_⟩ <;> simp [Engine.faulted, HoldSet.isEmpty, HoldSet.empty]

theorem raiseFault_inv {s : State} (c : FaultCode) (h : EngineInv s) : EngineInv (raiseFault c s) := by
  unfold raiseFault
  split <;> first | exact enterFaulted_inv _ _ _ | exact h

theorem laterFault_inv {s : State} (c : FaultCode) (h : EngineInv s) : EngineInv (laterFault c s) := by
  unfold laterFault
  refine ⟨?_, h.2, h.3⟩
  have := h.faultMarked
  simpa using this

theorem enterHeld_inv {s : State} (r : HoldReason) (l : Option Substate) (p : Option Nat) (h : Calm s)
    (hp : p = none ∨ r = .door) : EngineInv (enterHeld r l p s) := by
  unfold enterHeld
  simp only []
  have key (q : Timer) (hq : q ≠ .stopped → r = .door ∧ q.isRunning = true) :
      EngineInv (s.setEngine { s.engine with state := .held, holds := HoldSet.empty.put r true, purge := q }) := by
    refine ⟨?_, ?_, ?_⟩
    · simp [h.noFault]
    · cases r <;> simp [HoldSet.put, HoldSet.isEmpty, HoldSet.empty]
    · intro hne
      obtain ⟨hr, hq'⟩ := hq hne
      subst hr
      exact ⟨rfl, rfl, hq'⟩
  cases p with
  | none => exact engineInv_of_side (by simp) (key .stopped (fun h => absurd rfl h))
  | some n => exact engineInv_of_side (by simp) (key (.running n) (fun _ => ⟨by simpa using hp, rfl⟩))

theorem addReason_inv {s : State} (r : HoldReason) (h : EngineInv s) (hs : s.engine.state = .held) :
    EngineInv (addReason r s) := by
  unfold addReason
  split
  · exact h
  · refine engineInv_of_side (s := s.setEngine { s.engine with holds := s.engine.holds.put r true }) (by simp) ?_
    refine ⟨?_, ?_, ?_⟩
    · exact h.faultMarked
    · cases r <;> simp [HoldSet.put, HoldSet.isEmpty, hs]
    · intro hp
      obtain ⟨h1, h2, h3⟩ := h.purgeOnlyDoor hp
      exact ⟨h1, by cases r <;> simp [HoldSet.put, h2], h3⟩

theorem claimPhase_inv {s : State} (h : Calm s) : EngineInv (claimPhase s) := by
  unfold claimPhase
  simp only []
  have side (c : Content) (t : State) : (postIntent c t).engineSide = t.engineSide := by simp
  split
  · exact setSub_inv _ (calm_of_side (by simp) h)
  · split
    · split
      · split
        · exact setSub_inv _ h
        · exact engineInv_of_side (by simp; try rfl) (setSub_inv _ h)
      · exact engineInv_of_side (by simp; try rfl) (setSub_inv _ h)
    all_goals exact engineInv_of_side (by simp; try rfl) (setSub_inv _ h)

theorem entryTests_inv {s : State} (l : Option Substate) (h : Calm s) : EngineInv (entryTests l s) := by
  unfold entryTests
  simp only []
  split
  · exact enterHeld_inv _ _ _ h (Or.inl rfl)
  · split
    · exact enterHeld_inv _ _ _ h (Or.inl rfl)
    · split
      · exact enterFaulted_inv _ _ _
      · split
        · exact setSub_inv _ h
        · exact claimPhase_inv h

theorem enterFresh_inv {s : State} (i : Nat) (l : Option Substate) (h : Calm s) : EngineInv (enterFresh i l s) := by
  unfold enterFresh
  simp only []
  exact entryTests_inv _ ⟨h.1, h.2, h.3⟩

theorem leaveHeld_inv {s : State} (h : s.fault = none) : EngineInv (leaveHeld s) :=
  entryTests_inv _ ⟨h, rfl, rfl⟩

theorem endPurge_inv {s : State} (h : EngineInv s) : EngineInv (endPurge s) := by
  unfold endPurge
  refine engineInv_of_side (by simp) (s := s.setEngine { s.engine with purge := .stopped }) ?_
  exact ⟨h.1, h.2, fun hp => absurd rfl hp⟩

/-- Taking a reason other than DOOR, or DOOR with the purge to be stopped, keeps the engine consistent while the set is not
empty. -/
theorem removeReason_inv {s : State} (r : HoldReason) (h : EngineInv s) (hs : s.engine.state = .held) (hr : r ≠ .door) :
    EngineInv (removeReason r s) := by
  unfold removeReason
  simp only []
  split
  · exact leaveHeld_inv (h.heldFault hs)
  · next hne =>
    refine engineInv_of_side (by simp [takeReason])
      (s := s.setEngine { s.engine with holds := s.engine.holds.put r false }) ?_
    refine ⟨h.faultMarked, ?_, ?_⟩
    · have : ((s.engine.holds.put r false).isEmpty) = false := by
        simpa [takeReason, emit] using hne
      simp [this, hs]
    · intro hp
      obtain ⟨h1, h2, h3⟩ := h.purgeOnlyDoor hp
      exact ⟨h1, by cases r <;> simp_all [HoldSet.put], h3⟩

theorem running_calm {s : State} {b : Substate} (h : EngineInv s) (hs : s.engine.state = .running b) : Calm s :=
  h.calm (by simp [hs]) (by simp [hs])

theorem notify_inv {s : State} (n : Notice) (h : EngineInv s) : EngineInv (notify n s) := by
  unfold notify
  split
  · next b hb =>
    have hc := running_calm h hb
    have hpost (b : Substate) : EngineInv (postClaim (setSub b s)) := engineInv_of_side (by simp) (setSub_inv b hc)
    cases n
    · show EngineInv (noticeAdmitted b s)
      unfold noticeAdmitted
      simp only []
      (repeat' split) <;> first | exact h | exact setSub_inv _ hc | exact hpost _
    · show EngineInv (noticeWaiting b s)
      unfold noticeWaiting
      (repeat' split) <;> first | exact h | exact setSub_inv _ hc
    · show EngineInv (noticeNone b s)
      unfold noticeNone
      (repeat' split) <;> first | exact h | exact setSub_inv _ hc | exact hpost _
    · exact raiseFault_inv _ h
    · exact setSub_inv _ hc
  · have hn : EngineInv (noticeHeld s) := by
      unfold noticeHeld
      split
      · exact endPurge_inv h
      · exact h
    cases n
    · exact hn
    · exact hn
    · exact hn
    · exact raiseFault_inv _ h
    · exact ⟨h.1, h.2, fun hp => absurd rfl hp⟩
  all_goals exact h

theorem memberEntered_inv {s : State} (h : EngineInv s) : EngineInv (memberEntered s) := by
  unfold memberEntered
  split
  · next hs => exact entryTests_inv _ (running_calm h hs)
  all_goals exact h

theorem completeCycle_inv {s : State} (h : Calm s) : EngineInv (completeCycle s) := by
  unfold completeCycle
  simp only []
  refine engineInv_of_side (by simp) (s := s.setEngine { s.engine with state := .complete }) ?_
  exact Calm.inv ⟨h.1, h.2, h.3⟩ (by simp) (by simp)

theorem endPhase_inv {s : State} (o : Nat) (h : Calm s) : EngineInv (endPhase o s) := by
  unfold endPhase
  simp only []
  split
  · exact enterFresh_inv _ _ (calm_of_side (by simp) h)
  · exact completeCycle_inv (calm_of_side (by simp) h)

theorem durationReached_inv {s : State} (h : EngineInv s) : EngineInv (durationReached s) := by
  unfold durationReached
  split
  · next hc =>
    have := running_calm h hc.1
    exact endPhase_inv _ ⟨this.1, this.2, this.3⟩
  · exact h

theorem limitReached_inv {s : State} (h : EngineInv s) : EngineInv (limitReached s) := by
  unfold limitReached
  split
  · next hc =>
    have hk := running_calm h hc.1
    simp only []
    split
    · refine raiseFault_inv _ (Calm.inv ⟨hk.1, hk.2, hk.3⟩ ?_ ?_) <;> simp [hc.1]
    · exact endPhase_inv _ ⟨hk.1, hk.2, hk.3⟩
  · exact h

theorem doorOpened_inv {s : State} (h : EngineInv s) : EngineInv (doorOpened s) := by
  unfold doorOpened
  split
  · next hb => exact enterHeld_inv _ _ _ (running_calm h hb) (Or.inr rfl)
  · next hs => exact addReason_inv _ h hs
  all_goals exact h

theorem doorClosed_inv {s : State} (h : EngineInv s) : EngineInv (doorClosed s) := by
  unfold doorClosed
  split
  · next hc =>
    simp only []
    split
    · exact leaveHeld_inv (h.heldFault hc.1)
    · next hne =>
      have hset : ((s.engine.holds.put .door false).isEmpty) = false := by simpa [takeReason, emit] using hne
      split
      · unfold endPurge
        refine engineInv_of_side (by simp; try rfl)
          (s := s.setEngine { s.engine with holds := s.engine.holds.put .door false, purge := .stopped }) ?_
        exact ⟨h.faultMarked, by simp [hset, hc.1], fun hp => absurd rfl hp⟩
      · next hp =>
        refine engineInv_of_side (by simp [takeReason])
          (s := s.setEngine { s.engine with holds := s.engine.holds.put .door false }) ?_
        refine ⟨h.faultMarked, by simp [hset, hc.1], fun hq => ?_⟩
        exact absurd (h.purgeOnlyDoor hq).2.2 hp
  · exact h

theorem purgeRanOut_inv {s : State} (h : EngineInv s) : EngineInv (purgeRanOut s) := by
  unfold purgeRanOut
  split
  · exact endPurge_inv h
  · exact h

/-! ## Station Control and the frames -/

theorem clearTable_inv {s : State} (h : EngineInv s) : EngineInv (clearTable s) :=
  notify_inv _ (engineInv_of_side (by simp) h)

theorem enterGathering_inv {s : State} (c : Cause) (q : Nat) (h : EngineInv s) : EngineInv (enterGathering c q s) := by
  unfold enterGathering
  simp only []
  generalize hu : s.setControl _ = u
  have h1 : EngineInv u := by subst hu; exact engineInv_of_side (by simp) h
  exact engineInv_of_side (s := clearTable u) (by simp) (clearTable_inv h1)

theorem resync_inv {s : State} (c : Cause) (h : EngineInv s) : EngineInv (resync c s) :=
  enterGathering_inv _ _ (engineInv_of_side (by simp) h)

theorem restartGathering_inv {s : State} (c : Cause) (h : EngineInv s) : EngineInv (restartGathering c s) :=
  enterGathering_inv _ _ (engineInv_of_side (by simp) h)

theorem isolate_inv {s : State} (c : Cause) (h : EngineInv s) : EngineInv (isolate c s) := by
  unfold isolate
  simp only []
  generalize hu : resetList (s.setControl _) = u
  have h1 : EngineInv u := by subst hu; exact engineInv_of_side (by simp) h
  exact engineInv_of_side (s := clearTable u) (by simp) (clearTable_inv h1)

theorem goOffline_inv {s : State} (c : Cause) (h : EngineInv s) : EngineInv (goOffline c s) := by
  unfold goOffline
  simp only []
  generalize hu : (resetList ((s.setControl _).setLine _)) = u
  have h1 : EngineInv u := by subst hu; exact engineInv_of_side (by simp) h
  have h2 : EngineInv (notify .lost (u.setTable u.table.clearAll)) := notify_inv _ (engineInv_of_side (by simp) h1)
  (repeat' split) <;> exact engineInv_of_side (by simp) h2

theorem enterMember_inv {s : State} (h : EngineInv s) : EngineInv (enterMember s) := by
  unfold enterMember
  simp only []
  split
  · exact resync_inv _ (engineInv_of_side (by simp) h)
  · exact memberEntered_inv (engineInv_of_side (by simp) h)

theorem windowClosed_inv {s : State} (h : EngineInv s) : EngineInv (windowClosed s) := by
  unfold windowClosed
  split
  · exact enterMember_inv h
  · exact h

theorem failed_inv {s : State} (c : Cause) (h : EngineInv s) : EngineInv (failed c s) := by
  unfold failed
  split <;> first | exact isolate_inv _ h | exact goOffline_inv _ h | exact h

theorem reportObjection_inv {s : State} (h : EngineInv s) : EngineInv (reportObjection s) := by
  unfold reportObjection
  simp only []
  split
  · split
    · exact failed_inv _ (engineInv_of_side (by simp) h)
    · exact engineInv_of_side (by simp) h
  · exact h

theorem onFinding_inv {s : State} (c : Cause) (h : EngineInv s) : EngineInv (onFinding c s) := by
  have h1 := isolate_inv c h
  have h2 := restartGathering_inv c h
  have h3 := resync_inv c h
  unfold onFinding
  revert h1 h2 h3
  generalize isolate c s = a
  generalize restartGathering c s = b
  generalize resync c s = d
  intro h1 h2 h3
  (repeat' split) <;> assumption

theorem rejoinTimeout_inv {s : State} (h : EngineInv s) : EngineInv (rejoinTimeout s) := by
  unfold rejoinTimeout
  (repeat' split) <;> first
    | exact enterGathering_inv _ _ (engineInv_of_side (by simp) h)
    | exact engineInv_of_side (by simp) h

theorem reportDrop_inv {s : State} (c : Content) (h : EngineInv s) : EngineInv (reportDrop c s) := by
  unfold reportDrop
  (repeat' split) <;> first | exact goOffline_inv _ h | exact engineInv_of_side (by simp) h

theorem dropEntry_inv {s : State} (i : SlotId) (e : Entry) (c : Nat) (h : EngineInv s) :
    EngineInv (dropEntry i e c s) := by
  have key (u : State) (hu : u.engineSide = s.engineSide) : EngineInv (reportDrop e.content u) :=
    reportDrop_inv _ (engineInv_of_side hu h)
  unfold dropEntry
  simp only []
  (repeat' split) <;> first | exact failed_inv _ (key _ rfl) | exact key _ rfl

theorem listFailed_inv {s : State} (c : Nat) (h : EngineInv s) : EngineInv (listFailed c s) := by
  unfold listFailed
  simp only []
  (repeat' split) <;> first
    | exact dropEntry_inv _ _ _ (engineInv_of_side (by simp) h)
    | exact engineInv_of_side (by simp) h

theorem closeWindow_inv {s : State} (h : EngineInv s) : EngineInv (closeWindow s) := by
  unfold closeWindow
  split
  · exact windowClosed_inv (engineInv_of_side (by simp) h)
  · exact h

theorem atIdle_inv {s : State} (d : Bool) (h : EngineInv s) : EngineInv (atIdle d s) := by
  unfold atIdle
  simp only []
  split
  · generalize hu : s.setLine _ = u
    have h1 : EngineInv u := by subst hu; exact engineInv_of_side (by simp) h
    exact engineInv_of_side (s := closeWindow u) rfl (closeWindow_inv h1)
  · generalize hu : s.setLine _ = u
    have h1 : EngineInv u := by subst hu; exact engineInv_of_side (by simp) h
    exact engineInv_of_side (s := closeWindow u) (by simp) (closeWindow_inv h1)

theorem grant_inv {s : State} (h : EngineInv s) : EngineInv (grant s) := by
  unfold grant
  split
  · exact notify_inv _ (engineInv_of_side (by simp) h)
  all_goals exact h

theorem noticeHeard_inv {s : State} (w : Bool) (h : EngineInv s) : EngineInv (noticeHeard w s) := by
  unfold noticeHeard
  split
  · exact grant_inv h
  · exact h

theorem ownOutcome_inv {s : State} (k : FrameKind) (r : Bool) (q : Byte) (h : EngineInv s) :
    EngineInv (ownOutcome k r q s) := by
  unfold ownOutcome noticeOwn
  simp only []
  (repeat' split) <;> first
    | exact notify_inv _ (engineInv_of_side (by simp) h)
    | exact grant_inv (engineInv_of_side (by simp) h)
    | exact engineInv_of_side (by simp) h

theorem takeHeard_inv {s : State} (f : Frame) (h : EngineInv s) : EngineInv (takeHeard f s) := by
  unfold takeHeard
  have hc := takeHeardCore_engineSide f s
  revert hc
  generalize takeHeardCore f s = r
  intro hc
  rcases r with ⟨t, _ | c⟩
  · exact noticeHeard_inv _ (engineInv_of_side hc h)
  · exact onFinding_inv _ (engineInv_of_side hc h)

theorem takeOwn_inv {s : State} (f : Frame) (h : EngineInv s) : EngineInv (takeOwn f s) := by
  have h1 : EngineInv (renewOwn f.seq s) := engineInv_of_side (by simp) h
  unfold takeOwn
  simp only []
  cases f.kind
  · have hc := applyExpire_engineSide f.payload.p0.toNat f.payload.p1 false (renewOwn f.seq s)
    simp only []
    revert hc
    generalize applyExpire f.payload.p0.toNat f.payload.p1 false (renewOwn f.seq s) = r
    intro hc
    rcases r with ⟨t, _ | c⟩
    · exact engineInv_of_side hc h1
    · exact onFinding_inv _ (engineInv_of_side hc h1)
  · exact goOffline_inv _ h1
  · exact ownOutcome_inv _ _ _ (engineInv_of_side (by simp) h)
  · exact ownOutcome_inv _ _ _ (engineInv_of_side (by simp) h)
  · exact engineInv_of_side (by simp) h
  · exact h1

theorem deliver_inv {s : State} (o : Bool) (f : Frame) (h : EngineInv s) : EngineInv (deliver o f s) := by
  unfold deliver
  simp only []
  split
  · exact takeOwn_inv _ (engineInv_of_side (by simp) h)
  · exact takeHeard_inv _ (engineInv_of_side (by simp) h)

theorem countObjection_inv {s : State} (h : EngineInv s) : EngineInv (countObjection s) :=
  reportObjection_inv (engineInv_of_side (by simp) h)

theorem heardEnd_inv {s : State} (k : BitVec 4) (r : Reading) (v : Bool) (h : EngineInv s) :
    EngineInv (heardEnd k r v s) := by
  unfold heardEnd
  simp only []
  have h1 (l : Line) : EngineInv (s.setLine l) := engineInv_of_side (by simp) h
  have h2 (l : Line) : EngineInv (bump .receptionErrors (s.setLine l)) := engineInv_of_side (by simp) h
  have bumped (t : State) (c : Counter) (ht : EngineInv t) : EngineInv (bump c t) := engineInv_of_side (by simp) ht
  (repeat' split) <;>
    first
    | exact h1 _
    | exact h2 _
    | exact countObjection_inv (h2 _)
    | exact countObjection_inv (h1 _)
    | exact bumped _ _ (h1 _)
    | exact bumped _ _ (h2 _)
    | exact bumped _ _ (countObjection_inv (h1 _))
    | exact bumped _ _ (countObjection_inv (h2 _))
    | exact deliver_inv _ _ (h1 _)
    | exact deliver_inv _ _ (h2 _)
    | exact deliver_inv _ _ (countObjection_inv (h1 _))
    | exact deliver_inv _ _ (countObjection_inv (h2 _))

theorem ownOutcomeReport_inv {s : State} (f : Frame) (p a : Bool) (h : EngineInv s) :
    EngineInv (ownOutcomeReport f p a s) := by
  unfold ownOutcomeReport
  simp only []
  (repeat' split) <;> first
    | exact deliver_inv _ _ (engineInv_of_side (by simp) h)
    | exact listFailed_inv _ (engineInv_of_side (by simp) h)
    | exact engineInv_of_side (by simp) h

theorem ownEnd_inv {s : State} (f : Frame) (r : Reading) (d v : Bool) (h : EngineInv s) :
    EngineInv (ownEnd f r d v s) := by
  unfold ownEnd
  simp only []
  have h1 (l : Line) : EngineInv (s.setLine l) := engineInv_of_side (by simp) h
  have h2 (l : Line) (n : Nat) : EngineInv ((s.setLine l).setFree n) := engineInv_of_side (by simp) h
  (repeat' split) <;> first
    | exact countObjection_inv (ownOutcomeReport_inv _ _ _ (h2 _ _))
    | exact ownOutcomeReport_inv _ _ _ (countObjection_inv (h2 _ _))
    | exact ownOutcomeReport_inv _ _ _ (countObjection_inv (h1 _))
    | exact ownOutcomeReport_inv _ _ _ (h1 _)

theorem loseArbitration_inv {s : State} (k : List Bool) (h : EngineInv s) : EngineInv (loseArbitration k s) :=
  listFailed_inv _ (engineInv_of_side (by simp) h)

theorem frameEnd_inv {s : State} (k : BitVec 4) (r : Reading) (v : Bool) (h : EngineInv s) :
    EngineInv (frameEnd k r v s) := by
  unfold frameEnd
  simp only []
  (repeat' split) <;> first
    | exact heardEnd_inv _ _ _ h
    | exact ownEnd_inv _ _ _ _ h
    | exact heardEnd_inv _ _ _ (loseArbitration_inv _ h)
    | exact loseArbitration_inv _ h
    | exact engineInv_of_side (by simp) h

end Sys2Proof.Machine
end

