-- ==== Sys2Proof/Laws/LineLaws.lean ====
section
/-! SUPPORT. The line: what a sender's comparison with the line answers (R9, R10), that every frame row is one frame end, and
the gathered positions dropped on entry into MEMBER. -/

namespace Sys2Proof.Machine

/-- The first difference is a 1 read as 0: arbitration is lost (R9). -/
theorem contest_lost : ∀ (n : Nat) (sent got : List Bool), sent.take n = got.take n → sent[n]? = some true →
    got[n]? = some false → contest sent got = .lost
  | 0, _ :: _, _ :: _, _, h1, h2 => by simp_all [contest]
  | n + 1, _ :: a, _ :: b, h, h1, h2 => by
    simp only [List.take_succ_cons, List.cons.injEq, List.getElem?_cons_succ] at h h1 h2
    simp [contest, h.1, contest_lost n a b h.2 h1 h2]
  | _, [], _, _, h, _ => by simp at h
  | _, _ :: _, [], _, _, h => by simp at h

/-- The first difference is a 0 read as 1: a drive fault (R10). -/
theorem contest_driveFault : ∀ (n : Nat) (sent got : List Bool), sent.take n = got.take n → sent[n]? = some false →
    got[n]? = some true → contest sent got = .driveFault
  | 0, _ :: _, _ :: _, _, h1, h2 => by simp_all [contest]
  | n + 1, _ :: a, _ :: b, h, h1, h2 => by
    simp only [List.take_succ_cons, List.cons.injEq, List.getElem?_cons_succ] at h h1 h2
    simp [contest, h.1, contest_driveFault n a b h.2 h1 h2]
  | _, [], _, _, h, _ => by simp at h
  | _, _ :: _, [], _, _, h => by simp at h

/-- What was sent is read back (R9). -/
theorem contest_kept : ∀ sent got : List Bool, sent = got.take sent.length → contest sent got = .kept
  | [], got, _ => by cases got <;> rfl
  | _ :: _, [], h => by simp at h
  | _ :: a, _ :: b, h => by
    simp only [List.length_cons, List.take_succ_cons, List.cons.injEq] at h
    simp [contest, h.1, contest_kept a b h.2]

/-- Both 80 bits of R9 are 80 bits. -/
theorem Frame.dataBits_length (f : Frame) : f.dataBits.length = 80 := by
  simp [Frame.dataBits, coveredBits, bitsOf, Payload.bits]

theorem Reading.dataBits_length (kind : BitVec 4) (r : Reading) : (r.dataBits kind).length = 80 := by
  simp [Reading.dataBits, coveredBits, bitsOf, Payload.bits]

/-- A fault of the own start bit is a drive fault whatever follows it (R10). -/
theorem Reading.fares_startFault {kind : BitVec 4} {r : Reading} (h : r.startFault = true) (f : Frame) :
    r.fares kind f = .driveFault := by
  simp [Reading.fares, h]

/-- Every frame row ends the frame of its kind, void only in the row of a void frame. -/
theorem exec_frameRow {kind : BitVec 4} {r : Reading} {row : Instr}
    (h : (kind, row) ∈ [((1 : BitVec 4), Instr.expire r), (2, .leave r), (3, .release r), (4, .claim r), (5, .rollcall r),
      (6, .standing r), (kind, .undefinedKindFrame kind r), (kind, .voidFrame kind r)]) :
    ∃ void, ∀ s, exec row s = .next (refresh (frameEnd kind r void s)) := by
  simp only [List.mem_cons, Prod.mk.injEq, List.not_mem_nil, or_false, true_and] at h
  rcases h with ⟨rfl, rfl⟩ | ⟨rfl, rfl⟩ | ⟨rfl, rfl⟩ | ⟨rfl, rfl⟩ | ⟨rfl, rfl⟩ | ⟨rfl, rfl⟩ | rfl | rfl
  all_goals first | exact ⟨false, fun s => rfl⟩ | exact ⟨true, fun s => rfl⟩

/-- A record after the gathered positions are dropped (R93). -/
theorem Table.rec?_dropGathered (t : Table) (id : Nat) :
    t.dropGathered.rec? id = (t.rec? id).map (fun x => { x with holding := x.holding.dropGathered }) := by
  unfold Table.dropGathered Table.rec?
  split <;> simp

end Sys2Proof.Machine
end

