-- ==== Sys2Proof/Laws/Load.lean ====
section
/-! SUPPORT. The Load Drive: what its judgement of the gate leaves is safe whatever the state was. -/

namespace Sys2Proof.Machine

@[simp] theorem refresh_load (s : State) : (refresh s).load = Load.follow s := rfl
@[simp] theorem refresh_cfg (s : State) : (refresh s).cfg = s.cfg := rfl
@[simp] theorem refresh_pending (s : State) : (refresh s).pending = s.pending := rfl
@[simp] theorem refresh_free (s : State) : (refresh s).free = s.free := rfl
@[simp] theorem refresh_line (s : State) : (refresh s).line = s.line := rfl
@[simp] theorem refresh_out (s : State) : (refresh s).out = s.out := rfl
@[simp] theorem refresh_table (s : State) : (refresh s).table = s.table := rfl
@[simp] theorem refresh_control (s : State) : (refresh s).control = s.control := rfl
@[simp] theorem refresh_engine (s : State) : (refresh s).engine = s.engine := rfl
@[simp] theorem refresh_meas (s : State) : (refresh s).meas = s.meas := rfl
@[simp] theorem refresh_fault (s : State) : (refresh s).fault = s.fault := rfl
@[simp] theorem refresh_port (s : State) : (refresh s).port = s.port := rfl

/-- Every command ends with the Load Drive's judgement of its inputs. -/
theorem exec_refresh (c : Instr) (s : State) : ∃ u, exec c s = .next (refresh u) := by
  cases c <;> exact ⟨_, rfl⟩

/-- A step always answers a next state, and the Load Drive has followed it. -/
theorem step_refresh (s : State) : ∃ u, step s = .next (refresh u) := by
  unfold step
  split
  · exact ⟨_, rfl⟩
  · exact exec_refresh _ _

/-- The heaters after a cut draw no more than steam leaves. -/
theorem cutHeaters_rating (c : Settings) (p : Phase) (power steam heaters : Nat)
    (h : steam * c.steamRating.toNat ≤ power) :
    cutHeaters c p power steam heaters * c.heaterRating.toNat + steam * c.steamRating.toNat ≤ power := by
  unfold cutHeaters heaterAllowance
  split
  · have h1 := Nat.div_mul_le_self (power - steam * c.steamRating.toNat) c.heaterRating.toNat
    have h2 : min heaters (min c.heaterCount.toNat ((power - steam * c.steamRating.toNat) / c.heaterRating.toNat)) *
        c.heaterRating.toNat ≤ (power - steam * c.steamRating.toNat) / c.heaterRating.toNat * c.heaterRating.toNat :=
      Nat.mul_le_mul_right _ (Nat.le_trans (Nat.min_le_right _ _) (Nat.min_le_right _ _))
    omega
  · omega

/-- The allowed steam stages draw at most the admitted power. -/
theorem steamAllowance_rating (c : Settings) (power n : Nat) (h : n ≤ steamAllowance c power) :
    n * c.steamRating.toNat ≤ power :=
  Nat.le_trans (Nat.mul_le_mul_right _ (Nat.le_trans h (Nat.min_le_right _ _))) (Nat.div_mul_le_self _ _)

theorem cutHeaters_count (c : Settings) (p : Phase) (power steam heaters : Nat) :
    cutHeaters c p power steam heaters ≤ c.heaterCount.toNat := by
  unfold cutHeaters heaterAllowance
  split <;> omega

theorem steamAllowance_count (c : Settings) (power : Nat) : steamAllowance c power ≤ c.steamCount.toNat :=
  Nat.min_le_left _ _

/-- The phase request is the ACTIVE phase's (R124). -/
theorem loadRequest_phase {e : Engine} {i : Nat} {p : Phase} (h : e.loadRequest = .phase i p) :
    e.state = .running .active ∧ i = e.index ∧ p = e.current := by
  unfold Engine.loadRequest at h
  split at h
  · simp_all
  · split at h <;> simp_all
  all_goals simp_all

/-- The purge request is that of a purging engine (R124). -/
theorem loadRequest_purge {e : Engine} (h : e.loadRequest = .purge) : e.state = .held ∧ e.purge.isRunning = true := by
  unfold Engine.loadRequest at h
  split at h
  · simp_all
  · split at h <;> simp_all
  all_goals simp_all

/-- The fan's rule in the words of R168. -/
theorem fanOn_rule (s : State) :
    fanOn s.isMember s.engine.loadRequest =
      (s.isMember && ((s.isActive && s.engine.current.kind != .fill) || s.isPurging)) := by
  unfold State.isActive State.isPurging Engine.loadRequest
  rcases he : s.engine.state with _ | _ | sub | _ | _ | _ <;> try (simp [fanOn]; done)
  · have hne (b : Substate) : (EngineState.running b == EngineState.held) = false := by cases b <;> decide
    cases sub <;> simp [fanOn, hne]
  · cases hp : s.engine.purge.isRunning <;> simp [fanOn]

/-- The stages of a phase while the gate is open. -/
theorem drive_stages (l : Load) (s : State) (fresh : Bool) (i : Nat) (p : Phase) :
    (l.drive s fresh i p).steam ≤ steamAllowance s.cfg s.admittedPower := by
  unfold Load.drive
  simp only []
  split
  · split
    · omega
    · split <;> omega
  · omega

/-- Whatever the state was, the Load Drive leaves every load within its bounds. -/
theorem loadSafe_refresh (s : State) : LoadSafe (refresh s) := by
  unfold refresh Load.follow
  split
  case isFalse hg =>
    refine ⟨?_, ?_, ?_, ?_, ?_, ?_, fanOn_rule s⟩ <;> simp [Load.closed, State.ratedLoad]
  case isTrue hg =>
    have hm : s.isMember = true ∧ s.own.isAdmitted = true := by
      unfold State.gateOpen at hg; simp at hg; exact hg.1
    split
    case h_1 heq => unfold State.gateOpen at hg; simp [heq] at hg
    case h_2 i p heq =>
      obtain ⟨hs, hi, hp⟩ := loadRequest_phase heq
      have ha : s.isActive = true := by simp [State.isActive, hs]
      generalize hf : (!s.load.gate || s.load.request != .phase i p) = fresh
      have hst := drive_stages s.load s fresh i p
      have hr := steamAllowance_rating s.cfg s.admittedPower _ hst
      have hc := steamAllowance_count s.cfg s.admittedPower
      have hfan := fanOn_rule s
      rw [heq] at hfan
      have hheat : (s.load.drive s fresh i p).heaters =
        cutHeaters s.cfg p s.admittedPower (s.load.drive s fresh i p).steam s.load.heaters := rfl
      have hrate := cutHeaters_rating s.cfg p s.admittedPower _ s.load.heaters hr
      have hcount := cutHeaters_count s.cfg p s.admittedPower (s.load.drive s fresh i p).steam s.load.heaters
      rw [← hheat] at hrate hcount
      refine ⟨hrate, fun _ => ⟨hm.1, hm.2, ha⟩, ⟨hcount, Nat.le_trans hst hc⟩, ?_, ?_, ?_, hfan⟩
      · intro h
        show s.engine.current.kind = .steam
        rw [← hp]
        refine Classical.byContradiction fun hk => ?_
        simp [Load.drive, hk] at h
      · intro h
        refine ⟨?_, hm.1, Or.inl ⟨ha, ?_⟩⟩
        · show (s.load.drive s fresh i p).vent = s.own.held Share.vent
          by_cases hv : p.kind.vents = true
          · simp [Load.drive, hv]
          · simp [Load.drive, hv] at h
        · show s.engine.current.kind.vents = true
          rw [← hp]
          refine Classical.byContradiction fun hv => ?_
          simp [Load.drive, hv] at h
      · intro h
        simp only [State.setLoad_load, Load.drive, State.fillWanted, Bool.and_eq_true, beq_iff_eq, bne_iff_ne] at h
        exact ⟨ha, by rw [← h.1, hp]; rfl, hm.1, h.2.1, h.2.2⟩
    case h_3 heq =>
      obtain ⟨hs, hp⟩ := loadRequest_purge heq
      have hu : s.isPurging = true := by simp [State.isPurging, hs, hp]
      have hfan := fanOn_rule s
      rw [heq] at hfan
      refine ⟨?_, ?_, ?_, ?_, fun _ => ⟨rfl, hm.1, Or.inr hu⟩, ?_, hfan⟩ <;> simp [Load.purging, State.ratedLoad]

end Sys2Proof.Machine
end

