-- ==== Sys2Proof/Laws/MemoryLaws.lean ====
section
/-! SUPPORT. The staging memory: a store keeps the canonical form, and reading after a store. -/

namespace Sys2Proof.Machine

theorem Memory.wfFrom_mono : ∀ {m : Memory} {lo lo' : Nat}, lo' ≤ lo → Memory.wfFrom lo m = true →
    Memory.wfFrom lo' m = true
  | [], _, _, _, _ => rfl
  | (k, b) :: rest, lo, lo', hl, h => by
    simp only [Memory.wfFrom, Bool.and_eq_true, decide_eq_true_eq] at h ⊢
    exact ⟨⟨by omega, h.1.2⟩, h.2⟩

theorem Memory.wfFrom_write : ∀ {m : Memory} {lo a : Nat} {v : Byte}, lo ≤ a → Memory.wfFrom lo m = true →
    Memory.wfFrom lo (Memory.write m a v) = true
  | [], lo, a, v, hl, _ => by
    unfold Memory.write
    split
    · rfl
    · next hv => simp [Memory.wfFrom, hl, hv]
  | (k, b) :: rest, lo, a, v, hl, h => by
    simp only [Memory.wfFrom, Bool.and_eq_true, decide_eq_true_eq] at h
    unfold Memory.write
    split
    · next hak =>
      split
      · simp [Memory.wfFrom, h.1.1, h.2]; simpa using h.1.2
      · next hv =>
        simp only [Memory.wfFrom, Bool.and_eq_true, decide_eq_true_eq]
        exact ⟨⟨hl, by simpa using hv⟩, ⟨by omega, h.1.2⟩, h.2⟩
    · next hak =>
      split
      · next he =>
        subst he
        split
        · exact Memory.wfFrom_mono (by omega) h.2
        · next hv =>
          simp only [Memory.wfFrom, Bool.and_eq_true, decide_eq_true_eq]
          exact ⟨⟨hl, by simpa using hv⟩, h.2⟩
      · next he =>
        simp only [Memory.wfFrom, Bool.and_eq_true, decide_eq_true_eq]
        exact ⟨h.1, Memory.wfFrom_write (by omega) h.2⟩

/-- A store keeps the canonical form. -/
theorem Memory.wf_write {m : Memory} (a : Nat) (v : Byte) (h : Memory.wf m = true) :
    Memory.wf (Memory.write m a v) = true := Memory.wfFrom_write (Nat.zero_le a) h

/-- Below its first address a canonical memory lists nothing. -/
theorem Memory.read_below : ∀ {m : Memory} {lo a : Nat}, Memory.wfFrom lo m = true → a < lo →
    Memory.read m a = unlisted
  | [], _, _, _, _ => rfl
  | (k, b) :: rest, lo, a, h, hl => by
    simp only [Memory.wfFrom, Bool.and_eq_true, decide_eq_true_eq] at h
    unfold Memory.read
    rw [if_neg (by omega)]
    exact Memory.read_below h.2 (by omega)

theorem Memory.read_writeFrom : ∀ {m : Memory} {lo a : Nat} {v : Byte} (j : Nat), Memory.wfFrom lo m = true →
    Memory.read (Memory.write m a v) j = if j = a then v else Memory.read m j
  | [], lo, a, v, j, _ => by
    unfold Memory.write
    by_cases hj : j = a
    · subst hj; split <;> simp_all [Memory.read]
    · have : a ≠ j := fun h => hj h.symm
      split <;> simp [Memory.read, this]
  | (k, b) :: rest, lo, a, v, j, h => by
    simp only [Memory.wfFrom, Bool.and_eq_true, decide_eq_true_eq] at h
    unfold Memory.write
    split
    · next hak =>
      by_cases hj : j = a
      · subst hj
        have hk : k ≠ j := by omega
        have hr : Memory.read rest j = unlisted := Memory.read_below h.2 (by omega)
        split <;> simp_all [Memory.read]
      · have : a ≠ j := fun h => hj h.symm
        split <;> simp [Memory.read, this]
    · next hak =>
      split
      · next he =>
        subst he
        by_cases hj : j = a
        · subst hj
          have hr : Memory.read rest j = unlisted := Memory.read_below h.2 (by omega)
          split <;> simp_all [Memory.read]
        · have : a ≠ j := fun h => hj h.symm
          split <;> simp [Memory.read, this]
      · next he =>
        have ih := Memory.read_writeFrom (a := a) (v := v) j h.2
        by_cases hk : k = j
        · subst hk
          have : k ≠ a := fun h => he h.symm
          simp [Memory.read, this]
        · simp [Memory.read, hk, ih]

/-- Reading after a store into a canonical memory. -/
theorem Memory.read_write {m : Memory} (a : Nat) (v : Byte) (j : Nat) (h : Memory.wf m = true) :
    Memory.read (Memory.write m a v) j = if j = a then v else Memory.read m j := Memory.read_writeFrom j h

end Sys2Proof.Machine
end

