-- ==== Sys2Proof/Laws/PortLaws.lean ====
section
/-! SUPPORT. The exchange port: what the end of a transaction and the take of a command leave alone. -/

namespace Sys2Proof.Machine

@[simp] theorem endTransaction_pending (s : State) : (endTransaction s).pending = s.pending := by
  unfold endTransaction endCounts; (try dsimp only); (repeat' split) <;> rfl
@[simp] theorem endTransaction_free (s : State) : (endTransaction s).free = s.free := by
  unfold endTransaction endCounts; (try dsimp only); (repeat' split) <;> rfl
@[simp] theorem endTransaction_cfg (s : State) : (endTransaction s).cfg = s.cfg := by
  unfold endTransaction endCounts; (try dsimp only); (repeat' split) <;> rfl
@[simp] theorem endTransaction_line (s : State) : (endTransaction s).line = s.line := by
  unfold endTransaction endCounts; (try dsimp only); (repeat' split) <;> rfl
@[simp] theorem endTransaction_out (s : State) : (endTransaction s).out = s.out := by
  unfold endTransaction endCounts; (try dsimp only); (repeat' split) <;> rfl
@[simp] theorem endTransaction_table (s : State) : (endTransaction s).table = s.table := by
  unfold endTransaction endCounts; (try dsimp only); (repeat' split) <;> rfl
@[simp] theorem endTransaction_control (s : State) : (endTransaction s).control = s.control := by
  unfold endTransaction endCounts; (try dsimp only); (repeat' split) <;> rfl
@[simp] theorem endTransaction_engine (s : State) : (endTransaction s).engine = s.engine := by
  unfold endTransaction endCounts; (try dsimp only); (repeat' split) <;> rfl
@[simp] theorem endTransaction_meas (s : State) : (endTransaction s).meas = s.meas := by
  unfold endTransaction endCounts; (try dsimp only); (repeat' split) <;> rfl
@[simp] theorem endTransaction_load (s : State) : (endTransaction s).load = s.load := by
  unfold endTransaction endCounts; (try dsimp only); (repeat' split) <;> rfl
@[simp] theorem endTransaction_fault (s : State) : (endTransaction s).fault = s.fault := by
  unfold endTransaction endCounts; (try dsimp only); (repeat' split) <;> rfl
@[simp] theorem endTransaction_port_code (s : State) : (endTransaction s).port.code = s.port.code := by
  unfold endTransaction endCounts; (try dsimp only); (repeat' split) <;> rfl
@[simp] theorem endTransaction_port_result (s : State) : (endTransaction s).port.result = s.port.result := by
  unfold endTransaction endCounts; (try dsimp only); (repeat' split) <;> rfl
@[simp] theorem endTransaction_port_taken (s : State) : (endTransaction s).port.taken = s.port.taken := by
  unfold endTransaction endCounts; (try dsimp only); (repeat' split) <;> rfl
@[simp] theorem endTransaction_port_param1 (s : State) : (endTransaction s).port.param1 = s.port.param1 := by
  unfold endTransaction endCounts; (try dsimp only); (repeat' split) <;> rfl
@[simp] theorem endTransaction_port_param2 (s : State) : (endTransaction s).port.param2 = s.port.param2 := by
  unfold endTransaction endCounts; (try dsimp only); (repeat' split) <;> rfl
@[simp] theorem endTransaction_port_staging (s : State) : (endTransaction s).port.staging = s.port.staging := by
  unfold endTransaction endCounts; (try dsimp only); (repeat' split) <;> rfl
@[simp] theorem endTransaction_port_ring (s : State) : (endTransaction s).port.ring = s.port.ring := by
  unfold endTransaction endCounts; (try dsimp only); (repeat' split) <;> rfl
@[simp] theorem endTransaction_port_view (s : State) : (endTransaction s).port.view = s.port.view := by
  unfold endTransaction endCounts; (try dsimp only); (repeat' split) <;> rfl
@[simp] theorem endTransaction_port_txn (s : State) : (endTransaction s).port.txn = .closed := by
  unfold endTransaction endCounts; (try dsimp only); (repeat' split) <;> rfl
@[simp] theorem endTransaction_port_sdo (s : State) : (endTransaction s).port.sdo = .highZ := by
  unfold endTransaction endCounts; (try dsimp only); (repeat' split) <;> rfl
@[simp] theorem endTransaction_storeCode (c : Byte) (s : State) :
    endTransaction (storeCode c s) = storeCode c (endTransaction s) := by
  have h : (storeCode c s).port.txn = s.port.txn := rfl
  unfold endTransaction endCounts; simp only [h]; (repeat' split) <;> rfl

@[simp] theorem storeCode_pending (c : Byte) (s : State) : (storeCode c s).pending = s.pending := rfl
@[simp] theorem storeCode_free (c : Byte) (s : State) : (storeCode c s).free = s.free := rfl
@[simp] theorem storeCode_cfg (c : Byte) (s : State) : (storeCode c s).cfg = s.cfg := rfl
@[simp] theorem storeCode_line (c : Byte) (s : State) : (storeCode c s).line = s.line := rfl
@[simp] theorem storeCode_out (c : Byte) (s : State) : (storeCode c s).out = s.out := rfl
@[simp] theorem storeCode_table (c : Byte) (s : State) : (storeCode c s).table = s.table := rfl
@[simp] theorem storeCode_control (c : Byte) (s : State) : (storeCode c s).control = s.control := rfl
@[simp] theorem storeCode_engine (c : Byte) (s : State) : (storeCode c s).engine = s.engine := rfl
@[simp] theorem storeCode_meas (c : Byte) (s : State) : (storeCode c s).meas = s.meas := rfl
@[simp] theorem storeCode_load (c : Byte) (s : State) : (storeCode c s).load = s.load := rfl
@[simp] theorem storeCode_fault (c : Byte) (s : State) : (storeCode c s).fault = s.fault := rfl
@[simp] theorem answered_pending (r : Result) (s : State) : (answered r s).pending = s.pending := rfl
@[simp] theorem answered_free (r : Result) (s : State) : (answered r s).free = s.free := rfl
@[simp] theorem answered_cfg (r : Result) (s : State) : (answered r s).cfg = s.cfg := rfl
@[simp] theorem answered_line (r : Result) (s : State) : (answered r s).line = s.line := rfl
@[simp] theorem answered_out (r : Result) (s : State) : (answered r s).out = s.out := rfl
@[simp] theorem answered_table (r : Result) (s : State) : (answered r s).table = s.table := rfl
@[simp] theorem answered_control (r : Result) (s : State) : (answered r s).control = s.control := rfl
@[simp] theorem answered_engine (r : Result) (s : State) : (answered r s).engine = s.engine := rfl
@[simp] theorem answered_meas (r : Result) (s : State) : (answered r s).meas = s.meas := rfl
@[simp] theorem answered_load (r : Result) (s : State) : (answered r s).load = s.load := rfl
@[simp] theorem answered_fault (r : Result) (s : State) : (answered r s).fault = s.fault := rfl

end Sys2Proof.Machine
end

