-- ==== Sys2Proof/Laws/TableLaws.lean ====
section
/-! SUPPORT. The share table: reading after writing a record, and that every operation on the records keeps the pools within
the budgets (R65) and the queue equal to the WAITING ids (R74). -/

namespace Sys2Proof.Machine

/-! ## Reading after writing -/

@[simp] theorem Table.put_queue (t : Table) (id : Nat) (r : Option Rec) : (t.put id r).queue = t.queue := by
  unfold Table.put; split <;> rfl

@[simp] theorem Table.put_renewal (t : Table) (id : Nat) (r : Option Rec) : (t.put id r).renewal = t.renewal := by
  unfold Table.put; split <;> rfl
@[simp] theorem Table.put_selfLease (t : Table) (id : Nat) (r : Option Rec) : (t.put id r).selfLease = t.selfLease := by
  unfold Table.put; split <;> rfl
@[simp] theorem Table.put_windowOpen (t : Table) (id : Nat) (r : Option Rec) : (t.put id r).windowOpen = t.windowOpen := by
  unfold Table.put; split <;> rfl
@[simp] theorem Table.put_windowTimer (t : Table) (id : Nat) (r : Option Rec) : (t.put id r).windowTimer = t.windowTimer := by
  unfold Table.put; split <;> rfl
theorem Table.rec?_congr {t u : Table} (h : t.recs = u.recs) (id : Nat) : t.rec? id = u.rec? id := by
  unfold Table.rec?; simp only [h]

theorem Table.rec?_put (t : Table) (id j : Nat) (r : Option Rec) :
    (t.put id r).rec? j = if j = id ∧ 1 ≤ id ∧ id ≤ 15 then r else t.rec? j := by
  unfold Table.put Table.rec?
  by_cases h : 1 ≤ id ∧ id ≤ 15
  · by_cases hj : 1 ≤ j ∧ j ≤ 15
    · by_cases he : j = id
      · subst he; simp [h]
      · have : id - 1 ≠ j - 1 := by omega
        simp [h, hj, he, this]
    · have : ¬ (j = id ∧ 1 ≤ id ∧ id ≤ 15) := by omega
      simp [h, hj]; omega
  · have : ¬ (j = id ∧ 1 ≤ id ∧ id ≤ 15) := by omega
    simp [h]

/-- A record exists only for an id of 1 to 15. -/
theorem Table.rec?_range {t : Table} {id : Nat} {r : Rec} (h : t.rec? id = some r) : 1 ≤ id ∧ id ≤ 15 := by
  unfold Table.rec? at h
  split at h
  · assumption
  · simp at h

theorem Table.holding_of_rec {t : Table} {id : Nat} {r : Rec} (h : t.rec? id = some r) : t.holding id = r.holding := by
  simp [Table.holding, h]

theorem Table.setHolding_queue (t : Table) (id : Nat) (h : Holding) : (t.setHolding id h).queue = t.queue := by
  unfold Table.setHolding; split <;> simp

theorem Table.rec?_setHolding (t : Table) (id j : Nat) (h : Holding) :
    (t.setHolding id h).rec? j = if j = id then (t.rec? id).map (fun r => { r with holding := h }) else t.rec? j := by
  unfold Table.setHolding
  cases hr : t.rec? id with
  | none => by_cases hj : j = id <;> simp [hj, hr]
  | some r =>
    have hd := Table.rec?_range hr
    simp only [Table.rec?_put]
    by_cases hj : j = id <;> simp [hj, hd]

theorem Table.holding_setHolding (t : Table) (id j : Nat) (h : Holding) :
    (t.setHolding id h).holding j = if j = id ∧ (t.rec? id).isSome then h else t.holding j := by
  unfold Table.holding
  rw [Table.rec?_setHolding]
  by_cases hj : j = id
  · subst hj; cases hr : t.rec? j <;> simp
  · simp [hj]

/-! ## The sums (R65) -/

theorem sum_set (f : Option Rec → Nat) : ∀ (l : List (Option Rec)) (i : Nat) (h : i < l.length) (x : Option Rec),
    ((l.set i x).map f).sum + f l[i] = (l.map f).sum + f x
  | a :: l, 0, _, x => by simp [List.set]; omega
  | a :: l, i + 1, h, x => by
    have := sum_set f l i (by simpa using h) x
    simp [List.set] at this ⊢
    omega

/-- The sum after one record is replaced. -/
theorem Table.heldSum_put (t : Table) (f : Share → Nat) (id : Nat) (r : Option Rec) (h : 1 ≤ id ∧ id ≤ 15) :
    (t.put id r).heldSum f + heldBy f (t.rec? id) = t.heldSum f + heldBy f r := by
  have hs := sum_set (heldBy f) t.recs.toList (id - 1) (by simp; omega) r
  have hl : (t.put id r).recs.toList = t.recs.toList.set (id - 1) r := by
    unfold Table.put
    rw [dif_pos h]
    exact Vector.toList_set (by omega)
  have hr : t.rec? id = t.recs.toList[id - 1]'(by simp; omega) := by
    unfold Table.rec?
    rw [dif_pos h]
    exact (Vector.getElem_toList _).symm
  unfold Table.heldSum
  rw [hl, hr]
  exact hs

theorem Table.heldSum_setHolding (t : Table) (f : Share → Nat) (id : Nat) (h : Holding) (r : Rec)
    (hr : t.rec? id = some r) :
    (t.setHolding id h).heldSum f + r.holding.held f = t.heldSum f + h.held f := by
  have hp := Table.heldSum_put t f id (some { r with holding := h }) (Table.rec?_range hr)
  rw [hr] at hp
  simpa [Table.setHolding, hr, heldBy] using hp

/-- What a fitting request asks for is free in every pool (R66). -/
theorem fits_bounds {t : Table} {c : Settings} {a : Share} (h : t.fits c a = true) :
    a.power ≤ c.powerBudget.toNat - t.heldSum Share.power ∧ a.vent ≤ c.ventBudget.toNat - t.heldSum Share.vent ∧
      a.fill ≤ c.fillBudget.toNat - t.heldSum Share.fill := by
  unfold Table.fits at h
  rw [Bool.and_eq_true, Bool.and_eq_true] at h
  exact ⟨of_decide_eq_true h.1.1, of_decide_eq_true h.1.2, of_decide_eq_true h.2⟩

/-- The pools within the budgets, as a law of a table and a configuration. -/
structure Table.Within (t : Table) (c : Settings) : Prop where
  power : t.heldSum Share.power ≤ c.powerBudget.toNat
  vent : t.heldSum Share.vent ≤ c.ventBudget.toNat
  fill : t.heldSum Share.fill ≤ c.fillBudget.toNat

theorem Table.Within.of_recs {t u : Table} {c : Settings} (h : t.Within c) (hr : u.recs = t.recs) : u.Within c := by
  have hs (f : Share → Nat) : u.heldSum f = t.heldSum f := by simp only [Table.heldSum, hr]
  exact ⟨by rw [hs]; exact h.1, by rw [hs]; exact h.2, by rw [hs]; exact h.3⟩

/-- A record whose new content holds no more than the old one keeps the pools within the budgets. -/
theorem Table.Within.setHolding_le {t : Table} {c : Settings} (h : t.Within c) (id : Nat) (g : Holding)
    (hg : ∀ f : Share → Nat, f = Share.power ∨ f = Share.vent ∨ f = Share.fill → g.held f ≤ (t.holding id).held f) :
    (t.setHolding id g).Within c := by
  cases hr : t.rec? id with
  | none => simpa [Table.setHolding, hr] using h
  | some r =>
    have hh := Table.holding_of_rec hr
    have hp := hg Share.power (Or.inl rfl)
    have hv := hg Share.vent (Or.inr (Or.inl rfl))
    have hf := hg Share.fill (Or.inr (Or.inr rfl))
    rw [hh] at hp hv hf
    have h1 := Table.heldSum_setHolding t Share.power id g r hr
    have h2 := Table.heldSum_setHolding t Share.vent id g r hr
    have h3 := Table.heldSum_setHolding t Share.fill id g r hr
    exact ⟨by have := h.1; omega, by have := h.2; omega, by have := h.3; omega⟩

/-- Admitting a request that fits keeps the pools within the budgets (R66). -/
theorem Table.Within.accept {t : Table} {c : Settings} (h : t.Within c) (id : Nat) (a : Share)
    (hf : t.fits c a = true) : (t.setHolding id (.admitted a)).Within c := by
  cases hr : t.rec? id with
  | none => simpa [Table.setHolding, hr] using h
  | some r =>
    have h1 := Table.heldSum_setHolding t Share.power id (.admitted a) r hr
    have h2 := Table.heldSum_setHolding t Share.vent id (.admitted a) r hr
    have h3 := Table.heldSum_setHolding t Share.fill id (.admitted a) r hr
    obtain ⟨f1, f2, f3⟩ := fits_bounds hf
    have e1 : (Holding.admitted a).held Share.power = a.power := rfl
    have e2 : (Holding.admitted a).held Share.vent = a.vent := rfl
    have e3 : (Holding.admitted a).held Share.fill = a.fill := rfl
    exact ⟨by have := h.1; omega, by have := h.2; omega, by have := h.3; omega⟩

theorem Table.Within.giveUp {t : Table} {c : Settings} (h : t.Within c) (id : Nat) : (t.giveUp id).Within c :=
  Table.Within.of_recs (h.setHolding_le id .none (by intro f _; simp [Holding.held])) rfl

theorem Table.Within.scanFrom {c : Settings} : ∀ (q : List Nat) {t : Table}, t.Within c → (Table.scanFrom c q t).Within c
  | [], t, h => Table.Within.of_recs h rfl
  | id :: rest, t, h => by
    unfold Table.scanFrom
    split
    · split
      · next hf => exact Table.Within.scanFrom rest (h.accept id _ hf)
      · exact Table.Within.of_recs h rfl
    · exact Table.Within.of_recs h rfl
    · exact Table.Within.of_recs h rfl

/-- The admission scan keeps the pools within the budgets (R76). -/
theorem Table.Within.scan {t : Table} {c : Settings} (h : t.Within c) : (t.scan c).Within c :=
  Table.Within.scanFrom _ h

theorem Table.Within.compete {t : Table} {c : Settings} (h : t.Within c) (id : Nat) (a : Share) :
    (t.compete c id a).Within c := by
  unfold Table.compete
  split
  · next hc => exact h.accept id a (by simp at hc; exact hc.2)
  · exact Table.Within.of_recs (h.setHolding_le id (.waiting a none) (by intro f _; simp [Holding.held])) rfl

/-- A CLAIM keeps the pools within the budgets (R68 to R71). -/
theorem Table.Within.claim {t : Table} {c : Settings} (h : t.Within c) (id : Nat) (p : Payload) :
    (t.claim c id p).Within c := by
  unfold Table.claim
  split
  · exact h.giveUp id
  · split
    · next a _ =>
      split
      · next hs =>
        refine h.setHolding_le id _ ?_
        unfold Holding.stepsDown at hs
        split at hs
        · next b hb =>
          simp only [Bool.and_eq_true, decide_eq_true_eq] at hs
          rw [hb]
          intro f hf
          rcases hf with rfl | rfl | rfl <;> simp only [Holding.held] <;> omega
        · simp at hs
        · simp at hs
      · exact (h.giveUp id).compete id a
    · exact h.giveUp id

/-- Removing a record keeps the pools within the budgets (R41). -/
theorem Table.Within.remove {t : Table} {c : Settings} (h : t.Within c) (id : Nat) : (t.remove id).Within c := by
  refine Table.Within.of_recs (t := t.put id none) ?_ rfl
  by_cases hd : 1 ≤ id ∧ id ≤ 15
  · have h1 := Table.heldSum_put t Share.power id none hd
    have h2 := Table.heldSum_put t Share.vent id none hd
    have h3 := Table.heldSum_put t Share.fill id none hd
    simp only [heldBy] at h1 h2 h3
    exact ⟨by have := h.1; omega, by have := h.2; omega, by have := h.3; omega⟩
  · exact Table.Within.of_recs h (by simp [Table.put, hd])

/-- Adding a station that holds nothing, or whose amounts fit, keeps the pools within the budgets (R55, R60). -/
theorem Table.Within.add {t : Table} {c : Settings} (h : t.Within c) (id : Nat) (q : Byte) (n : Nat) (g : Holding)
    (hg : ∀ a, g = .admitted a → t.fits c a = true) : (t.add id q n g).Within c := by
  by_cases hd : 1 ≤ id ∧ id ≤ 15
  · have h1 := Table.heldSum_put t Share.power id (some ⟨q, .running n, g⟩) hd
    have h2 := Table.heldSum_put t Share.vent id (some ⟨q, .running n, g⟩) hd
    have h3 := Table.heldSum_put t Share.fill id (some ⟨q, .running n, g⟩) hd
    simp only [heldBy] at h1 h2 h3
    cases g with
    | admitted a =>
      have hf := hg a rfl
      obtain ⟨f1, f2, f3⟩ := fits_bounds hf
      simp only [Holding.held] at h1 h2 h3
      exact ⟨by have := h.1; simp only [Table.add]; omega, by have := h.2; simp only [Table.add]; omega,
        by have := h.3; simp only [Table.add]; omega⟩
    | none =>
      simp only [Holding.held] at h1 h2 h3
      exact ⟨by have := h.1; simp only [Table.add]; omega, by have := h.2; simp only [Table.add]; omega,
        by have := h.3; simp only [Table.add]; omega⟩
    | waiting a g =>
      simp only [Holding.held] at h1 h2 h3
      exact ⟨by have := h.1; simp only [Table.add]; omega, by have := h.2; simp only [Table.add]; omega,
        by have := h.3; simp only [Table.add]; omega⟩
  · exact Table.Within.of_recs h (by simp [Table.add, Table.put, hd])

/-! ## The queue (R74, R75) -/

/-- Giving up keeps the queue equal to the WAITING ids, and takes the id out of it (R73). -/
theorem QueueIsWaiting.giveUp {t : Table} (h : QueueIsWaiting t) (id : Nat) : QueueIsWaiting (t.giveUp id) := by
  refine ⟨h.once.filter _, fun j => ?_⟩
  have hx := h.exact j
  have hid := h.exact id
  show j ∈ t.queue.filter _ ↔ ((t.setHolding id .none).holding j).isWaiting = true
  rw [Table.holding_setHolding]
  by_cases hj : j = id
  · subst hj
    cases hr : t.rec? j with
    | none => simp [Table.holding, hr, Holding.isWaiting]
    | some r => simp [Holding.isWaiting]
  · simp [hj, hx]

/-- Removing a peer keeps the queue equal to the WAITING ids (R41). -/
theorem QueueIsWaiting.remove {t : Table} (h : QueueIsWaiting t) (id : Nat) : QueueIsWaiting (t.remove id) := by
  refine ⟨h.once.filter _, fun j => ?_⟩
  have hx := h.exact j
  show j ∈ t.queue.filter _ ↔ ((t.put id none).holding j).isWaiting = true
  unfold Table.holding
  rw [Table.rec?_put]
  by_cases hj : j = id
  · subst hj
    by_cases hd : 1 ≤ j ∧ j ≤ 15
    · simp [hd, Holding.isWaiting]
    · have : t.rec? j = none := by simp [Table.rec?, hd]
      simp [hd, this, Holding.isWaiting]
  · simp only [Table.holding] at hx
    simp [hj, hx]

theorem QueueIsWaiting.scanFrom {c : Settings} : ∀ (q : List Nat) {t : Table},
    QueueIsWaiting { t with queue := q } → QueueIsWaiting (Table.scanFrom c q t)
  | [], t, h => h
  | id :: rest, t, h => by
    unfold Table.scanFrom
    split
    · next a g hw =>
      split
      · apply QueueIsWaiting.scanFrom rest
        have hn := h.once
        simp only [List.nodup_cons] at hn
        refine ⟨hn.2, fun j => ?_⟩
        have hx := h.exact j
        show j ∈ rest ↔ ((t.setHolding id (.admitted a)).holding j).isWaiting = true
        rw [Table.holding_setHolding]
        have hr : (t.rec? id).isSome = true := by
          cases hr : t.rec? id with
          | none => simp [Table.holding, hr] at hw
          | some r => rfl
        by_cases hj : j = id
        · subst hj; simp [hr, hn.1, Holding.isWaiting]
        · simp only [hj, false_and, if_false]
          simp only [List.mem_cons, hj, false_or] at hx
          exact hx
      · exact h
    · exact h
    · exact h

/-- The admission scan keeps the queue equal to the WAITING ids (R76). -/
theorem QueueIsWaiting.scan {t : Table} (c : Settings) (h : QueueIsWaiting t) : QueueIsWaiting (t.scan c) :=
  QueueIsWaiting.scanFrom _ h

/-- Competing keeps the queue equal to the WAITING ids, for a PRESENT station that waits for nothing (R71). -/
theorem QueueIsWaiting.compete {t : Table} (c : Settings) (id : Nat) (a : Share) (h : QueueIsWaiting t)
    (hp : (t.rec? id).isSome = true) (hw : (t.holding id).isWaiting = false) : QueueIsWaiting (t.compete c id a) := by
  have hni : id ∉ t.queue := fun hm => by simp [(h.exact id).1 hm] at hw
  unfold Table.compete
  split
  · refine ⟨by rw [Table.setHolding_queue]; exact h.once, fun j => ?_⟩
    rw [Table.setHolding_queue, Table.holding_setHolding]
    by_cases hj : j = id
    · subst hj; simp [hp, hni, Holding.isWaiting]
    · simp [hj, h.exact j]
  · refine ⟨?_, fun j => ?_⟩
    · show (t.queue ++ [id]).Nodup
      simp only [List.nodup_append, List.nodup_cons, List.not_mem_nil, not_false_eq_true, List.nodup_nil, and_self,
        List.mem_singleton, true_and]
      exact ⟨h.once, fun x hx y hy => by subst hy; intro he; subst he; exact hni hx⟩
    · show j ∈ t.queue ++ [id] ↔ ((t.setHolding id (.waiting a none)).holding j).isWaiting = true
      rw [Table.holding_setHolding]
      by_cases hj : j = id
      · subst hj; simp [hp, Holding.isWaiting]
      · simp [hj, h.exact j]

/-- A CLAIM of a PRESENT station keeps the queue equal to the WAITING ids (R68 to R71). -/
theorem QueueIsWaiting.claim {t : Table} (c : Settings) (id : Nat) (p : Payload) (h : QueueIsWaiting t)
    (hp : (t.rec? id).isSome = true) : QueueIsWaiting (t.claim c id p) := by
  unfold Table.claim
  split
  · exact h.giveUp id
  · split
    · next a _ =>
      split
      · next hs =>
        have hw : (t.holding id).isWaiting = false := by
          unfold Holding.stepsDown at hs
          split at hs
          · next hb => rw [hb]; rfl
          all_goals simp at hs
        have hni : id ∉ t.queue := fun hm => by simp [(h.exact id).1 hm] at hw
        refine ⟨by rw [Table.setHolding_queue]; exact h.once, fun j => ?_⟩
        rw [Table.setHolding_queue, Table.holding_setHolding]
        by_cases hj : j = id
        · subst hj; simp [hp, hni, Holding.isWaiting]
        · simp [hj, h.exact j]
      · refine (h.giveUp id).compete c id a ?_ ?_
        · show ((t.setHolding id .none).rec? id).isSome = true
          rw [Table.rec?_setHolding]; simpa using hp
        · show ((t.setHolding id .none).holding id).isWaiting = false
          rw [Table.holding_setHolding]; simp [hp, Holding.isWaiting]
    · exact h.giveUp id

end Sys2Proof.Machine
end

