-- ==== Sys2Proof/Laws/TransitionLaws.lean ====
section
/-! SUPPORT. What each transition of Station Control leaves, as one equation between states. -/

namespace Sys2Proof.Machine

/-- LOST changes the engine's substate or purge and nothing else (R135, R142, R151). -/
theorem notify_lost (s : State) : notify .lost s = s.setEngine s.engine.afterLost := by
  cases h : s.engine.state <;> simp only [notify, Engine.afterLost, setSub, h] <;> rfl

/-- The state after the clearing and the events of a transition (R40, R81, R85, R106). -/
def State.moved (s : State) (station : StationState) (cause : Cause) (qualifier : Nat) : State :=
  { s with
    table := s.table.clear s.ownId
    engine := s.engine.afterLost
    port := { s.port with ring := s.ringMoved station cause qualifier } }

/-- Entry into GATHERING (R90). -/
theorem enterGathering_eq (cause : Cause) (q : Nat) (s : State) : enterGathering cause q s =
    { s.moved .gathering cause q with
      control := { s.control with station := .gathering, answered := false }
      out := s.out.post .rollcall (.rollcall s.cfg.powerBudget s.cfg.ventBudget s.cfg.fillBudget) } := by
  unfold enterGathering grantLost State.moved State.ringMoved clearTable
  simp only [notify_lost]
  cases h : s.own <;> rfl

/-- A resync (R95). -/
theorem resync_eq (cause : Cause) (s : State) : resync cause s =
    { bump .resyncs (s.moved .gathering cause 0) with
      control := { s.control with station := .gathering, answered := false, memberTimer := .stopped }
      out := s.out.emptied.post .rollcall (.rollcall s.cfg.powerBudget s.cfg.ventBudget s.cfg.fillBudget) } := by
  unfold resync
  rw [enterGathering_eq]
  rfl

/-- A restart of gathering (R94). -/
theorem restartGathering_eq (cause : Cause) (s : State) : restartGathering cause s =
    { bump .gatherRestarts (s.moved .gathering .gatherRestart cause.code) with
      control := { s.control with station := .gathering, answered := false }
      out := s.out.withdrawAll.post .rollcall (.rollcall s.cfg.powerBudget s.cfg.ventBudget s.cfg.fillBudget) } := by
  unfold restartGathering
  rw [enterGathering_eq]
  rfl

/-- Entry into ISOLATED but for COMMAND_DONE (R99). -/
theorem isolate_eq (cause : Cause) (s : State) : isolate cause s =
    completeJoin cause
      { s.moved .isolated cause s.control.rejoins with
        control := { s.control with
          station := .isolated, isolation := some cause, memberTimer := .stopped, answered := false, run := 0,
          rejoinTimer := rejoinTimerFor s.cfg cause }
        out := { s.out.emptied with drops := 0 } } := by
  unfold isolate grantLost State.moved State.ringMoved clearTable
  simp only [notify_lost]
  cases h : s.own <;> rfl

/-- Entry into OFFLINE but for COMMAND_DONE (R104). -/
def State.offlined (s : State) (cause : Cause) : State :=
  { s.moved .offline cause 0 with
    table := s.table.clearAll
    line := s.line.detach
    control := { s.control with
      station := .offline, isolation := none, rejoins := 0, run := 0, rejoinTimer := .stopped, memberTimer := .stopped,
      answered := false }
    out := { s.out.emptied with drops := 0 } }

/-- Entry into OFFLINE (R104): a LEAVE STATION awaited is completed. -/
theorem goOffline_eq (cause : Cause) (s : State) : goOffline cause s =
    if s.control.awaited = some .leaveStation then commandDone .leaveStation cause (s.offlined cause)
    else s.offlined cause := by
  have h : ∀ x, x = s.offlined cause →
      (match x.control.awaited with
        | some .leaveStation => commandDone .leaveStation cause x
        | some .startStation => x
        | some .rejoin => x
        | none => x) =
      if s.control.awaited = some .leaveStation then commandDone .leaveStation cause (s.offlined cause)
      else s.offlined cause := by
    rintro x rfl
    have ha : (s.offlined cause).control.awaited = s.control.awaited := rfl
    rw [ha]
    cases s.control.awaited with
    | none => rfl
    | some a => cases a <;> rfl
  unfold goOffline
  simp only [notify_lost]
  refine h _ ?_
  unfold grantLost State.offlined State.moved State.ringMoved
  cases h : s.own <;> rfl

end Sys2Proof.Machine
end

