-- ==== Sys2Proof/Tests/Slice0.lean ====
section
/-! SUPPORT. Tests of the model: ill-formed terms, single steps on small states, and for every statement with premises a state
that meets them, clause by clause. -/

namespace Sys2Proof.Tests

open Sys2Proof Sys2Proof.Machine

set_option Elab.async false

/-! ## Small states -/

/-- A configuration that START STATION accepts: id 1, one care class. -/
def cfgA : Settings :=
  { Settings.reset with
    stationId := 1, powerBudget := 20, ventBudget := 10, fillBudget := 2, heaterCount := 4, heaterRating := 5,
    classes := Settings.reset.classes.set 0 ⟨60, 1, 1, 0⟩ }

/-- A DRY phase of ten minutes. -/
def dryPhase : Phase := ⟨.dry, .time, false, 50, 0, 10, 4, 600, 0⟩

/-- The amounts the DRY phase asks for. -/
def dryShare : Share := ⟨10, 4, 0, .dry⟩

/-- The staged record of the DRY phase. -/
def dryStaging : Memory :=
  [(0x100, 5), (0x101, 1), (0x103, 50), (0x105, 10), (0x106, 4), (0x107, 2), (0x108, 0x58)]

/-- The door closed and a good sample. -/
def calm : Meas :=
  { Meas.reset with sample := ⟨some 50, some 40, .ok, false⟩, airBad := 0, humBad := 0, doorOpen := false, doorPinClosed := true }

/-- A station in a given state on the line, its own record holding `h`, a loaded cycle of one DRY phase. -/
def at' (st : StationState) (h : Holding) (e : EngineState) : State :=
  { State.reset with
    cfg := cfgA
    line := { Line.reset with state := .idle, id := 1 }
    control := { Control.reset with station := st }
    table := { Table.reset with recs := Table.reset.recs.set 0 (some ⟨255, .stopped, h⟩) }
    engine := { Engine.reset with phases := [dryPhase], cls := 1, maxTemp := 60, state := e }
    meas := calm }

/-- A MEMBER without a share. -/
def member (e : EngineState) : State := at' .member .none e

/-- A MEMBER admitted with the share of its phase. -/
def admitted (e : EngineState) : State := at' .member (.admitted dryShare) e

/-- A state with a peer's record. -/
def withPeer (id : Nat) (seq : Byte) (h : Holding) (s : State) : State :=
  s.setTable (s.table.put id (some ⟨seq, .running 100, h⟩))

/-- A HELD engine with given reasons. -/
def heldBy' (r : HoldSet) (s : State) : State := s.setEngine { s.engine with state := .held, holds := r }

/-- A FAULTED engine with a record of a code and a later code. -/
def faultedBy (c : FaultCode) (last : Option FaultCode) (s : State) : State :=
  (s.setEngine { s.engine with state := .faulted }).setFault
    (some ⟨c, 0, .dry, .running .active, HoldSet.empty, none, none, 0, last⟩)

/-- A state whose open WRITE stands at an address. -/
def writingAt (a : BitVec 11) (s : State) : State :=
  s.setPort { s.port with txn := .opened ⟨.write, a, false, false, false, Latches.none⟩ }

/-- A state whose open READ stands at an address. -/
def readingAt (a : BitVec 11) (l : Latches) (s : State) : State :=
  s.setPort { s.port with txn := .opened ⟨.read, a, false, false, false, l⟩ }

/-- A whole byte within a transaction. -/
def dataOf (v : Byte) : SpiByte := ⟨false, v, true, false⟩

/-- The last whole byte of a transaction. -/
def lastOf (v : Byte) : SpiByte := ⟨false, v, true, true⟩

/-- The pins of a cabinet at rest. -/
def pins : Inputs := ⟨⟨.measured 2500, .measured 4000, true, false, false⟩, true, false⟩

/-- A clean reading of a peer's frame. -/
def readingOf (k : FrameKind) (sender : BitVec 4) (seq : Byte) (p : Payload) : Reading := Reading.clean k.code sender seq p

/-- A state sending a frame whose entry stands in a slot. -/
def sendingIt (f : Frame) (id : SlotId) (c : Content) (s : State) : State :=
  (s.setLine { s.line with state := .sending, tx := some f }).setOut
    { (s.out.setSlot id ⟨some ⟨c, 0, 0⟩, none⟩) with flight := some id }

/-- The state after a command. -/
def after (c : Instr) (s : State) : State :=
  match exec c s with
  | .next t => t
  | .fault _ => s
  | .refused _ => s

/-- The state after the three header bytes of a transaction. -/
def opened (cmd hi lo : Byte) (s : State) : State :=
  after (.readLatch (dataOf lo)) (after (.readLatch (dataOf hi)) (after (.readLatch ⟨true, cmd, true, false⟩) s))

/-! ## Well-formedness: each check refuses an ill-formed term -/

theorem test_ill_formed_bad_command_zero :
    Instr.wellFormed (.badCommand 0) = false := by decide +kernel

theorem test_ill_formed_bad_command_defined :
    Instr.wellFormed (.badCommand 0x11) = false := by decide +kernel

theorem test_ill_formed_partial_byte_goes_on :
    [Instr.configWrite ⟨false, 0, false, false⟩, .nextOutWrite ⟨false, 0, false, false⟩,
      .registerWrite ⟨false, 0, false, false⟩, .readLatch ⟨true, 0, false, false⟩].any Instr.wellFormed = false := by
  decide +kernel

theorem test_ill_formed_mark_position :
    let r : Reading := { readingOf .leave 2 0 Payload.zero with markFaultAt := some 80 }
    [Instr.expire r, .leave r, .release r, .claim r, .rollcall r, .standing r, .undefinedKindFrame 7 r,
      .voidFrame 2 r].any Instr.wellFormed = false := by decide +kernel

theorem test_ill_formed_arbitration_bit :
    Instr.wellFormed (.arbitrationLost 80) = false := by decide +kernel

theorem test_ill_formed_defined_kind :
    Instr.wellFormed (.undefinedKindFrame 6 (readingOf .leave 2 0 Payload.zero)) = false := by decide +kernel

theorem test_ill_formed_peer_zero :
    Instr.wellFormed (.peerLeaseTimeout 0) = false := by decide +kernel

theorem test_well_formed_terms :
    [Instr.badCommand 0x77, .configWrite (dataOf 0), .nextOutWrite (lastOf 0), .registerWrite ⟨true, 0, false, true⟩,
      .readLatch (dataOf 0), .voidFrame 4 { readingOf .claim 2 0 Payload.zero with markFaultAt := some 79 }, .arbitrationLost 79, .peerLeaseTimeout 15,
      .undefinedKindFrame 7 (readingOf .leave 2 0 Payload.zero)].all Instr.wellFormed = true := by decide +kernel

/-! ## Frames and readings -/

theorem test_crc_check_value :
    crc (([0x31, 0x32, 0x33, 0x34, 0x35, 0x36, 0x37, 0x38, 0x39] : List Byte).flatMap bitsOf) = 0x29B1 := by decide +kernel

theorem test_sensor_limits :
    airReading false (.measured (-1000)) = some (-20) ∧ airReading false (.measured (-1001)) = none ∧
      airReading false (.measured 12000) = some 240 ∧ airReading false (.measured 12001) = none ∧
      airReading true (.measured 25) = some 1 ∧ airReading false (.measured 25) = some 0 ∧
      humReading false (.measured 10000) = some 100 ∧ humReading false (.measured 10001) = none := by decide +kernel

/-! ## One step on small states -/

theorem test_power_on_station :
    (after (.powerOn pins) (member .loaded)).control.station = .offline ∧
      (after (.powerOn pins) (member .loaded)).meas.debounce = .running 2000 := by decide +kernel

theorem test_start_station :
    (after .startStation { State.reset with cfg := cfgA }).control.station = .gathering ∧
      (after .startStation State.reset).port.taken = some ⟨.badConfig 0x010, 4⟩ := by decide +kernel

theorem test_leave_station :
    (after .leaveStation (member .loaded)).control.station = .leaving := by decide +kernel

theorem test_rejoin :
    (after .rejoin (member .loaded)).control.station = .gathering := by decide +kernel

theorem test_load_cycle :
    (after .loadCycle (State.setPort { State.reset with cfg := cfgA }
      { Port.reset with staging := dryStaging, param1 := 1, param2 := 1 })).engine.phases = [dryPhase] := by decide +kernel

theorem test_start_cycle :
    (after .startCycle (member .loaded)).engine.state = .running .claiming ∧
      ((after .startCycle (member .loaded)).out.intent.entry = some ⟨.claim dryShare, 0, 0⟩) := by decide +kernel

theorem test_hold_and_resume :
    (after .hold (admitted (.running .active))).engine.state = .held ∧
      (after .resume (heldBy' ⟨true, false, false⟩ (member .held))).engine.state = .running .claiming := by decide +kernel

theorem test_abort_cycle :
    (after .abortCycle (admitted (.running .active))).engine.state = .loaded := by decide +kernel

theorem test_clear_fault :
    (after .clearFault (faultedBy .phaseLimit none (member .loaded))).fault = none := by decide +kernel

theorem test_snapshot :
    (after .snapshotPeers (member .loaded)).port.view.station = .member := by decide +kernel

theorem test_bad_command :
    (after (.badCommand 0x77) (member .loaded)).port.taken = some ⟨.badCommand 0x77, 4⟩ := by decide +kernel

theorem test_config_write :
    (after (.configWrite (lastOf 7)) (opened 0x02 0 0x10 State.reset)).cfg.stationId = 7 ∧
      (after (.configWrite (lastOf 7)) (opened 0x02 0 0x10 (member .loaded))).counter .configRefused = 1 := by decide +kernel

theorem test_register_write_takes_code :
    (after (.registerWrite (lastOf 0x11)) (opened 0x02 0 0x80 (member .loaded))).engine.state = .running .claiming ∧
      (after (.registerWrite (dataOf 0x11)) (opened 0x02 0 0x80 (member .loaded))).engine.state = .loaded := by
  decide +kernel

theorem test_register_write_restarts :
    (after (.registerWrite (lastOf 0x3F)) (opened 0x02 0 0x80 (member .loaded))).control.station = .offline ∧
      (after (.registerWrite (lastOf 0x3F)) (opened 0x02 0 0x80 (member .loaded))).port.code = 0 := by decide +kernel

theorem test_header_cut_short :
    (after (.readLatch ⟨true, 0x02, true, false⟩) State.reset).port.sdo = .low ∧
      (after (.readLatch (lastOf 0)) (after (.readLatch ⟨true, 0x02, true, false⟩) State.reset)).port = Port.reset := by
  decide +kernel

theorem test_dead_header_stores_nothing :
    (after (.configWrite (lastOf 7)) (opened 0x05 0 0x10 State.reset)).cfg = Settings.reset := by decide +kernel

theorem test_next_out_write :
    (after (.nextOutWrite (lastOf 1)) (opened 0x02 0 0xF1 (emit .levelLow 0 1 5 0 0 (member .loaded)))).port.ring.nextOut = 1 := by
  decide +kernel

theorem test_read_latch :
    (after (.readLatch (dataOf 0)) (opened 0x03 0 0x00 State.reset)).port.sdo = .byte 0x04 := by decide +kernel

theorem test_idle_offers :
    (after (.idle false) ((member .loaded).setOut (OutList.reset.post .standing .standing))).line.state = .sending := by decide +kernel

theorem test_deferral_receives :
    (after (.idle true) ((member .loaded).setOut (OutList.reset.post .standing .standing))).line.state = .receiving ∧
      (after (.idle false) (after (.idle true)
        ((member .loaded).setOut (OutList.reset.post .standing .standing)))).line.state = .receiving := by decide +kernel

theorem test_false_start :
    (after .falseStart (member .loaded)).counter .receptionErrors = 1 := by decide +kernel

theorem test_peer_claim_admitted :
    (after (.claim (readingOf .claim 2 5 (Payload.ofRequest dryShare))) (withPeer 2 4 .none (member .loaded))).table.holding 2
      = .admitted dryShare := by decide +kernel

theorem test_peer_claim_waits :
    (after (.claim (readingOf .claim 2 5 (Payload.ofRequest ⟨15, 4, 0, .dry⟩)))
      (withPeer 2 4 .none (admitted (.running .active)))).table.queue = [2] := by decide +kernel

theorem test_peer_leave :
    (after (.leave (readingOf .leave 2 5 Payload.zero)) (withPeer 2 4 .none (member .loaded))).table.rec? 2 = none := by decide +kernel

theorem test_peer_rollcall_adds :
    ((after (.rollcall (readingOf .rollcall 3 9 ⟨20, 10, 2, 0, 0, 0⟩)) (member .loaded)).table.rec? 3).isSome = true := by decide +kernel

theorem test_sequence_gap_resyncs :
    (after (.release (readingOf .release 2 7 Payload.zero)) (withPeer 2 4 .none (member .loaded))).control.station
      = .gathering := by decide +kernel

theorem test_self_lease :
    (after .selfLease ((member .loaded).setTable { (member .loaded).table with selfLease := .running 0 })).control.station
      = .gathering := by decide +kernel

theorem test_door_change_purges :
    (after .doorChange ((admitted (.running .active)).setMeas { calm with doorPinClosed := false, debounce := .running 0 })).engine.purge
      = .running 800000 := by decide +kernel

theorem test_phase_duration :
    (after .phaseDurationReached (admitted (.running .active))).engine.state = .complete := by decide +kernel

theorem test_over_temperature :
    (sampleStep true ⟨some 171, some 40, .ok, false⟩ (admitted (.running .active))).engine.state = .faulted ∧
      (sampleStep false ⟨some 130, some 40, .ok, false⟩ (admitted (.running .active))).engine.state = .running .active := by decide +kernel

theorem test_tick_takes_the_sample :
    let s := (member .loaded).setMeas { calm with inputs := pins.sensors, nextSample := .running 1 }
    let u := advanceTimers s
    s.meas.nextSample.isDue = false ∧ u.meas.nextSample.isDue = true ∧ (timeEvents.getD 23 ⟨fun _ => false, id⟩).due u = true ∧
      ∀ a b c : Bool, (sampleStep c (sampleOf a b u.meas.inputs) u).meas.sample.reservoir = .ok := by decide +kernel

theorem test_timers_stop_short_of_the_end :
    let s0 := (admitted (.running .active)).setMeas
      { calm with doorPinClosed := false, debounce := .running 1, nextSample := .stopped }
    let s := (s0.setEngine { s0.engine with phaseTimer := 600 * 40000 - 1 }).setLine { s0.line with state := .waitIdle }
    (tick s).engine.state = .held ∧ (tick s).engine.phaseTimer = 600 * 40000 - 1 := by decide +kernel

theorem test_completion :
    (after .completion (after .hold (member .loaded))).port.result = .wrongState ∧
      (after .completion (after .hold (member .loaded))).port.code = 0 := by decide +kernel

/-! ## Invariants hold somewhere, and a step answers there -/

theorem wit_StepInvariants_step : step (admitted (.running .active)) = .next (tick (admitted (.running .active))) := rfl

theorem wit_EngineStaysConsistent :
    EngineInv (admitted (.running .active)) ∧ EngineInv (heldBy' ⟨false, true, false⟩ (admitted .held)) ∧
      EngineInv (faultedBy .sensor none (member .loaded)) :=
  ⟨⟨by decide, by decide, by decide⟩, ⟨by decide, by decide, by decide⟩, ⟨by decide, by decide, by decide⟩⟩

theorem wit_BankLawsKept : BankInv (admitted (.running .active)) where
  pools := ⟨by decide +kernel, by decide +kernel, by decide +kernel⟩
  queue :=
    ⟨by decide, fun id => by
      by_cases h : id < 16
      · revert id; decide +kernel
      · have : (admitted (.running .active)).table.rec? id = none := dif_neg (by omega)
        simp only [Table.holding, this, Holding.isWaiting]
        exact ⟨fun h => absurd h List.not_mem_nil, fun h => absurd h (by decide)⟩⟩
  offline := fun h => absurd h (by decide +kernel)
  ownPresent := by decide +kernel

theorem wit_StagingStaysCanonical : StagingOk (State.reset.setPort { Port.reset with staging := dryStaging }) := by
  refine ⟨by decide +kernel, fun a h => ?_⟩
  show Memory.read dryStaging a = unlisted
  unfold dryStaging
  repeat' (unfold Memory.read; first | rfl | (rw [if_neg (by omega)]))

/-! ## Premises of the statements are met, clause by clause -/

theorem wit_EmptyQueueTicks :
    ((admitted (.running .active)).pending = []) ∧
      (let s := (admitted (.running .active)).setLine { (admitted (.running .active)).line with state := .waitIdle }
       s.engine.endsNow = false ∧ timeEvents.all (fun e => !e.due (advanceTimers s)) = true) ∧
      (let s0 := (admitted (.running .active)).setLine { (admitted (.running .active)).line with state := .waitIdle }
       let s := s0.setEngine { s0.engine with phaseTimer := 600 * 40000 - 1 }
       s.engine.endsNow = true ∧ timeEvents.all (fun e => !e.due (advanceTimers s)) = true) ∧
      (let s := (member .idle).setMeas { calm with nextSample := .running 1 }
       ((timeEvents.take 23).any (fun e => e.due (advanceTimers s))) = false ∧
         (timeEvents[23]?).any (fun e => e.due (advanceTimers s)) = true) := by decide +kernel

theorem wit_BusyPortDiscards :
    (codeRefused 0x11 (State.reset.setPort { Port.reset with code := 0x12 }) = true) ∧
      (codeRefused 0x77 (State.reset.setPort { Port.reset with code := 0x3F }) = true ∧ (0x77 : Byte) ≠ 0 ∧ (0x77 : Byte) ∉ commandCodes) ∧
      ((State.reset.setPort { Port.reset with code := 0x12 }).port.txn = .closed) := by decide +kernel

theorem wit_StartStationAnswers :
    (codeRefused 0x01 (member .idle) = false ∧ (member .idle).control.station ≠ .offline) ∧
      (codeRefused 0x01 State.reset = false ∧ State.reset.control.station = .offline ∧ State.reset.cfg.firstBad = some 0x010) ∧
      (cfgA.firstBad = none) := by decide +kernel

theorem wit_StartStationAnswers_joins :
    let s := { State.reset with cfg := cfgA }
    codeRefused 0x01 s = false ∧ s.control.station = .offline ∧ s.cfg.firstBad = none ∧ OfflineQuiet s :=
  ⟨by decide, by decide, by decide +kernel, ⟨by decide, by decide, by decide +kernel, by decide +kernel, by decide⟩⟩

theorem wit_LeaveStationAnswers :
    (codeRefused 0x02 State.reset = false ∧ State.reset.control.station ≠ .member) ∧
      (let s := admitted .complete; codeRefused 0x02 s = false ∧ s.control.station = .member ∧ s.own ≠ .none) ∧
      (let s := member .loaded; codeRefused 0x02 s = false ∧ s.control.station = .member ∧ s.own = .none ∧ s.intentBusy = false ∧
        s.engine.state.underWay = false) := by decide +kernel

theorem wit_LeaveStationAnswers_rejoin :
    (codeRefused 0x03 State.reset = false ∧ State.reset.control.station ≠ .member ∧ State.reset.control.station ≠ .isolated) ∧
      ((member .idle).control.station = .member) ∧
      (codeRefused 0x03 (at' .isolated .none .idle) = false ∧ (at' .isolated .none .idle).control.station = .isolated) := by decide +kernel

theorem wit_LoadCycleAnswers :
    (codeRefused 0x10 (admitted (.running .active)) = false ∧ (admitted (.running .active)).engine.state.underWay = true) ∧
      ((faultedBy .sensor none (member .idle)).engine.state = .faulted) ∧
      (let s := State.setPort { State.reset with cfg := cfgA } { Port.reset with staging := dryStaging, param1 := 1, param2 := 1 }; codeRefused 0x10 s = false ∧ s.engine.state = .idle ∧ s.port.param1.toNat = 1 ∧ s.port.param2.toNat = 1) := by decide +kernel

theorem wit_checkCycle_accepts : checkCycle cfgA dryStaging 1 1 = .ok (⟨60, 1, 1, 0⟩, [dryPhase]) := rfl

theorem wit_LoadedPhasesAreSound :
    checkCycle cfgA dryStaging 0 1 = .error (255, .count) ∧ checkCycle cfgA dryStaging 17 1 = .error (255, .count) ∧
      checkCycle cfgA dryStaging 1 2 = .error (255, .cls) ∧ checkCycle cfgA dryStaging 1 7 = .error (255, .cls) ∧
      checkCycle cfgA [] 1 1 = .error (0, .kind) ∧ checkCycle cfgA dryStaging 2 1 = .error (1, .kind) ∧
      checkCycle cfgA (Memory.write dryStaging 0x101 4) 1 1 = .error (0, .endCondition) ∧
      checkCycle { cfgA with classes := cfgA.classes.set 0 ⟨60, 1, 0, 9⟩ } dryStaging 1 1 = .error (0, .cycleLength) ∧
      cfgA.careClass? 1 = some ⟨60, 1, 1, 0⟩ ∧ cfgA.careClass? 6 = some CareClass.unused :=
  ⟨rfl, rfl, rfl, rfl, rfl, rfl, rfl, rfl, rfl, rfl⟩

theorem test_reasons_in_order :
    let staged := fun (l : List (Nat × Byte)) => l.foldl (fun m x => Memory.write m x.1 x.2) dryStaging
    checkCycle cfgA (staged [(0x103, 76)]) 1 1 = .error (0, .targetRange) ∧
      checkCycle cfgA (staged [(0x104, 5)]) 1 1 = .error (0, .targetRange) ∧
      checkCycle cfgA (staged [(0x103, 61)]) 1 1 = .error (0, .classTemp) ∧
      checkCycle cfgA (staged [(0x100, 3), (0x104, 50)]) 1 1 = .error (0, .classSteam) ∧
      checkCycle cfgA (staged [(0x105, 64)]) 1 1 = .error (0, .claimShape) ∧
      checkCycle cfgA (staged [(0x105, 21), (0x107, 0), (0x108, 0)]) 1 1 = .error (0, .claimSize) ∧
      checkCycle cfgA (staged [(0x107, 0), (0x108, 0), (0x10A, 1)]) 1 1 = .error (0, .duration) ∧
      checkCycle cfgA (staged [(0x102, 2), (0x10F, 1)]) 1 1 = .error (0, .limit) ∧
      checkCycle cfgA (staged [(0x10F, 1)]) 1 1 = .error (0, .pad) :=
  ⟨rfl, rfl, rfl, rfl, rfl, rfl, rfl, rfl, rfl⟩

theorem wit_RefusedLoadChangesNothing :
    (codeRefused 0x10 State.reset = false ∧ State.reset.engine.state = .idle) := by decide +kernel

theorem wit_StartCycleAnswers :
    (codeRefused 0x11 (member .idle) = false) ∧
      ((faultedBy .sensor none (member .idle)).engine.state = .faulted) ∧
      ((admitted (.running .active)).engine.state.underWay = true) ∧
      ((member .idle).engine.state = .idle) ∧
      (let s := (member .loaded).setEngine { (member .loaded).engine with stale := true }; codeRefused 0x11 s = false ∧ s.engine.state = .loaded ∧ s.engine.stale = true) ∧
      (let s := at' .gathering .none .complete; s.engine.state = .complete ∧ s.engine.stale = false ∧ s.control.station ≠ .member) ∧
      (let s := member .loaded; s.engine.state = .loaded ∧ s.engine.stale = false ∧ s.control.station = .member) := by decide +kernel

theorem wit_StartCycleEntersPhaseZero :
    (let s := (member .loaded).setMeas { calm with doorOpen := true }; codeRefused 0x11 s = false ∧ s.engine.state = .loaded ∧ s.engine.stale = false ∧
        s.control.station = .member ∧ s.meas.doorOpen = true) ∧
      (let s := member .complete; codeRefused 0x11 s = false ∧ s.engine.state = .complete ∧ s.engine.stale = false ∧ s.control.station = .member ∧
        s.meas.doorOpen = false ∧ s.meas.sample.tankFull = false ∧ s.meas.sample.reservoir ≠ .empty ∧
        (s.engine.phases.getD 0 Phase.blank).request.isZero = false ∧ s.own = .none) := by decide +kernel

/-- A STEAM phase of ten minutes. -/
def steamPhase : Phase := ⟨.steam, .time, false, 0, 60, 10, 4, 600, 0⟩

/-- The current phase replaced. -/
def withPhases (ps : List Phase) (s : State) : State := s.setEngine { s.engine with phases := ps }

theorem wit_PhaseEntries :
    ((State.reset).meas.doorOpen = true) ∧
      (let s := (member .loaded).setMeas { calm with sample := ⟨some 50, some 40, .ok, true⟩ }
       s.meas.doorOpen = false ∧ s.engine.current.kind = .dry ∧ s.meas.sample.tankFull = true) ∧
      (let s := (withPhases [steamPhase] (member .loaded)).setMeas { calm with sample := ⟨some 50, some 40, .empty, false⟩ }
       s.meas.doorOpen = false ∧ s.engine.current.kind = .steam ∧ s.meas.sample.reservoir = .empty) ∧
      ((at' .gathering .none .loaded).control.station ≠ .member ∧ (at' .gathering .none .loaded).meas.doorOpen = false) ∧
      (let p := (withPhases [⟨.settle, .time, false, 0, 0, 0, 0, 60, 0⟩] (member .loaded)).engine.current
       p.power = 0 ∧ p.vent = 0 ∧ p.kind ≠ .fill) ∧
      ((admitted .loaded).own = .admitted dryShare ∧ (admitted .loaded).intentBusy = false ∧
        (admitted .loaded).engine.current.power ≤ dryShare.power) ∧
      ((member .loaded).own = .none ∧ (member .loaded).engine.current.power ≠ 0) ∧
      (let s := withPhases [dryPhase, dryPhase] (admitted (.running .active))
       s.engine.index + 1 < s.engine.phases.length ∧ s.engine.current.stop = .time) := by decide +kernel

theorem wit_PhaseEntries_regain :
    let s0 := at' .gathering .none (.running .regain)
    let s := (s0.setTable { s0.table with windowOpen := true, windowTimer := .runOut }).setControl
      { s0.control with answered := true }
    s.line.state = .idle ∧ s.table.renewal ≠ .runOut ∧ s.table.selfLease ≠ .runOut ∧ s.control.awaited = none ∧
      s.own = .none ∧ s.meas.doorOpen = false ∧ s.meas.sample.tankFull = false ∧ s.engine.current.kind ≠ .steam ∧
      s.engine.current.request.isZero = false ∧ (after (.idle true) s).control.station = .member ∧
      (after (.idle true) s).engine = { s.engine with state := .running .claiming } ∧
      (after (.idle true) s).out = s.out.post .intent (.claim dryShare) := by decide +kernel

theorem test_next_phase_entered :
    (after .phaseDurationReached (withPhases [dryPhase, dryPhase] (admitted (.running .active)))).engine.index = 1 ∧
      (after .phaseDurationReached (withPhases [dryPhase, dryPhase] (admitted (.running .active)))).engine.state
        = .running .active := by decide +kernel

theorem wit_HoldAnswers :
    (codeRefused 0x12 (admitted (.running .active)) = false ∧ (admitted (.running .active)).engine.state = .running .active) ∧
      (let s := heldBy' ⟨false, true, false⟩ (member .held); s.engine.state = .held ∧ s.engine.holds.host = false) ∧
      (let s := heldBy' ⟨true, false, false⟩ (member .held); s.engine.state = .held ∧ s.engine.holds.host = true) ∧
      ((faultedBy .sensor none (member .idle)).engine.state = .faulted) ∧
      ((member .complete).engine.state = .complete) := by decide +kernel

theorem wit_ResumeAnswers :
    (let s := heldBy' ⟨true, true, false⟩ (member .held); codeRefused 0x13 s = false ∧ s.engine.state = .held ∧ s.engine.holds.host = true ∧ s.engine.holds.door = true) ∧
      (let s := heldBy' ⟨true, false, false⟩ (member .held); s.engine.state = .held ∧ s.engine.holds = ⟨true, false, false⟩ ∧ s.meas.doorOpen = false ∧
        s.meas.sample.tankFull = false ∧ s.meas.sample.reservoir ≠ .empty ∧ s.control.station = .member ∧ s.own = .none ∧
        s.engine.current.request.isZero = false) ∧
      ((heldBy' ⟨false, true, false⟩ (member .held)).engine.holds.host = false) ∧
      ((faultedBy .sensor none (member .idle)).engine.state = .faulted) ∧
      ((member .loaded).engine.state ≠ .held ∧ (member .loaded).engine.state ≠ .faulted) := by decide +kernel

theorem wit_AbortAnswers :
    (codeRefused 0x14 (admitted (.running .active)) = false ∧ (admitted (.running .active)).engine.state.underWay = true) ∧
      ((faultedBy .sensor none (member .idle)).engine.state = .faulted) ∧
      ((member .idle).engine.state = .idle) := by decide +kernel

theorem wit_AbortAnswers_clearFault :
    (codeRefused 0x15 (member .idle) = false ∧ (member .idle).engine.state ≠ .faulted) ∧
      (let s := (faultedBy .overTemp none (member .idle)).setMeas { calm with sample := ⟨some 121, none, .ok, false⟩ }; s.engine.state = .faulted ∧ s.fault.isSome = true ∧ clearCondition s.engine s.meas.sample .overTemp = true) ∧
      (let s := (faultedBy .phaseLimit (some .sensor) (member .idle)).setMeas { calm with sample := ⟨some 121, none, .ok, false⟩ }; clearCondition s.engine s.meas.sample .phaseLimit = false ∧
        clearCondition s.engine s.meas.sample .sensor = true) ∧
      (let s := faultedBy .overTemp (some .sensor) (member .idle); clearCondition s.engine s.meas.sample .overTemp = false ∧
        clearCondition s.engine s.meas.sample .sensor = false) := by decide +kernel

theorem wit_SnapshotAndBadCommand :
    (codeRefused 0x20 (member .idle) = false) ∧
      ((0x77 : Byte) ≠ 0 ∧ (0x77 : Byte) ∉ commandCodes ∧ codeRefused 0x77 (member .idle) = false) := by decide +kernel

theorem wit_SnapshotAndBadCommand_clear :
    (codeRefused 0x21 (member .idle) = false ∧ (member .idle).port.txn = .closed) := by decide +kernel

theorem wit_ResetsReset :
    (codeRefused 0x3F (member .idle) = false) ∧
      (codeRefused 0x3F (State.reset.setPort { Port.reset with code := 0x3F }) = false) := by decide +kernel

theorem wit_CompletionWrites :
    ((after .hold (member .idle)).port.taken = some ⟨.wrongState, 4⟩) := by decide +kernel

theorem wit_WritesAreTestedByRegion :
    ((dataOf 5).starts = false ∧ (dataOf 5).whole = true ∧ (dataOf 5).ends = false) ∧
      ((writingAt 0x010 State.reset).port.txn = .opened ⟨.write, 0x010, false, false, false, Latches.none⟩) ∧
      ((0x010 : BitVec 11).toNat = 0x010 ∧ (0x01D : BitVec 11).toNat = 0x01D ∧ (0x020 : BitVec 11).toNat = 0x020 ∧
        (0x037 : BitVec 11).toNat = 0x037 ∧ (0x7FF : BitVec 11).toNat = 0x7FF) ∧
      ((writingAt 0x010 State.reset).control.station = .offline ∧ (writingAt 0x037 (member .idle)).control.station ≠ .offline) ∧
      ((writingAt 0x080 State.reset).port.code = 0 ∧ (writingAt 0x080 (after .hold (member .idle))).port.code ≠ 0) ∧
      (Memory.wf dryStaging = true) := by decide +kernel

theorem wit_WritesAreTestedByRegion_nextOut :
    ((writingAt 0x0F1 State.reset).port.txn = .opened ⟨.write, 0x0F1, false, false, false, Latches.none⟩ ∧ (0x0F1 : BitVec 11).toNat = 0x0F1) := by decide +kernel

theorem wit_ReadsAreCoherent :
    ((readingAt 0x000 Latches.none State.reset).port.txn = .opened ⟨.read, 0x000, false, false, false, Latches.none⟩) ∧
      (coherentOf 0x08F = none ∧ coherentOf 0x0F8 = none ∧ coherentOf 0x390 = none) ∧
      ((0x090 : BitVec 11).toNat = 0x090 ∧ (0x0BF : BitVec 11).toNat = 0x0BF ∧ Latches.none.get .status = none) ∧
      ((0x38F : BitVec 11).toNat = 0x38F ∧ (Latches.none.set .peerView [1]).get .peerView = some [1]) := by decide +kernel

theorem wit_TransactionsBeginAndEnd :
    ((lastOf 7).ends = true ∧ (lastOf 7).starts = false ∧ (⟨true, 2, true, false⟩ : SpiByte).starts = true) ∧
      (let s := after (.readLatch ⟨true, 0x02, true, false⟩) State.reset
       s.port.txn = .header [0x02] ∧ (after (.readLatch (dataOf 0)) s).port.txn = .header [0x02, 0]) ∧
      ((State.reset.setPort { Port.reset with txn := .opened ⟨.dead, 0, false, false, false, Latches.none⟩ }).port.txn =
        .opened ⟨.dead, 0, false, false, false, Latches.none⟩) ∧
      (let s := State.reset.setPort { Port.reset with code := 0x11, txn := .opened ⟨.write, 0x081, false, false, true, Latches.none⟩ }
       s.port.code = 0x11 ∧ s.port.taken = none ∧ s.port.txn = .opened ⟨.write, 0x081, false, false, true, Latches.none⟩) := by
  decide +kernel

theorem wit_ExchangeAreaShows :
    State.reset.fault = none ∧ (faultedBy .sensor none (member .idle)).fault.isSome = true ∧
      (faultedBy .sensor none (member .idle)).exchange 0x0C0 = 2 ∧ (member .idle).exchange 0x200 = 5 ∧
      (after .snapshotPeers (admitted .complete)).exchange 0x318 = 129 ∧
      (after .snapshotPeers (admitted .complete)).exchange 0x31B = 5 := by decide +kernel

/-- The ring after some events. -/
def ringOf (n : Nat) : Ring := (List.range n).foldl (fun r _ => r.record 15 0 1 5 0 0) Ring.reset

theorem wit_EventsAndCounts :
    (ringOf 30).unread.toNat ≠ 31 ∧ (ringOf 31).unread.toNat = 31 ∧ (ringOf 31).lost = 0 ∧ (ringOf 32).lost = 1 ∧
      (ringOf 32).firstLost = 31 ∧ (ringOf 33).lost = 2 ∧ (ringOf 33).firstLost = 31 ∧ (ringOf 33).seq = 33 := by
  decide +kernel

theorem wit_IdentityReads :
    ((member .idle).locked = true ∧ State.reset.locked = false) ∧
      (codeRefused 0x3F (member .idle) = false) := by decide +kernel

theorem wit_PayloadsRoundTrip :
    (let a : Share := ⟨63, 31, 1, .cool⟩; a.power ≤ 63 ∧ a.vent ≤ 31 ∧ a.fill ≤ 1) ∧
      (let a : Share := ⟨0, 0, 0, .fill⟩; a.power ≤ 63 ∧ a.vent ≤ 31 ∧ a.fill ≤ 1) ∧
      ((1 ≤ 1 ∧ 1 ≤ 15) ∧ (1 ≤ 15 ∧ 15 ≤ 15)) := by decide +kernel

theorem wit_ListOffersAndPostings :
    ((OutList.reset.post .standing .standing).offer true = some .standing) ∧
      (OutList.reset.offer false = none) ∧
      (SlotId.intent ≠ .expire 3) ∧
      (StationState.offline.takesPart = false ∧ StationState.member.takesPart = true) ∧
      (((OutList.reset.post (.expire 15) (.expire 15 3)).slot (.expire 15)).entry.isSome = true) ∧
      (({ OutList.reset with flight := some .intent } : OutList).flight = some .intent ∧ OutList.reset.flight ≠ some .intent) := by decide +kernel

theorem wit_IdleOffers :
    ((member .idle).line.state = .idle ∧ ¬ ((member .idle).table.windowOpen = true ∧ (member .idle).table.windowTimer = .runOut)) ∧
      ((member .idle).out.offer (member .idle).table.windowOpen = none) ∧
      (let s := (member .idle).setOut (OutList.reset.post .standing .standing); s.out.offer s.table.windowOpen = some .standing ∧
        (s.out.slot .standing).entry = some ⟨.standing, 0, 0⟩ ∧ s.control.station.takesPart = true) ∧
      ((after (.idle true) (member .idle)).line.state = .receiving ∧ State.reset.line.state = .detached) := by decide +kernel

theorem wit_WindowCloseEndsGathering :
    (let s0 := at' .gathering .none .idle; let s := (s0.setTable { s0.table with windowOpen := true, windowTimer := .runOut }); s.line.state = .idle ∧ s.table.windowOpen = true ∧ s.table.windowTimer = .runOut ∧ s.control.station = .gathering ∧
        s.control.answered = false) ∧
      (let s0 := at' .gathering .none .idle; let s := (s0.setTable { s0.table with windowOpen := true, windowTimer := .runOut }).setControl { s0.control with answered := true }; s.line.state = .idle ∧ s.table.windowOpen = true ∧ s.table.windowTimer = .runOut ∧ s.control.station = .gathering ∧
        s.control.answered = true ∧ s.table.renewal ≠ .runOut ∧ s.table.selfLease ≠ .runOut ∧ s.control.awaited = none ∧
        s.engine.state ≠ .running .regain) := by decide +kernel

/-- A GATHERING station whose interface waits for idle, its window's time over. -/
def windowOver (answered : Bool) : State :=
  let s := at' .gathering .none .idle
  ((s.setTable { s.table with windowOpen := true, windowTimer := .runOut }).setLine { s.line with state := .waitIdle }).setControl
    { s.control with answered := answered }

theorem wit_WindowCloseEndsGathering_waiting :
    (windowOver false).line.state = .waitIdle ∧ (windowOver false).control.answered = false ∧
      (windowOver true).line.state = .waitIdle ∧ (windowOver true).table.windowOpen = true ∧
      (windowOver true).table.windowTimer = .runOut ∧ (windowOver true).control.station = .gathering ∧
      (windowOver true).control.answered = true ∧ (windowOver true).table.renewal ≠ .runOut ∧
      (windowOver true).table.selfLease ≠ .runOut ∧ (windowOver true).control.awaited = none ∧
      (windowOver true).engine.state ≠ .running .regain ∧
      (after (.idle true) (windowOver true)).control.station = .member := by decide +kernel

theorem wit_FalseStartsAndAbandonedFrames :
    ((member .idle).line.state = .idle) ∧
      (let s := after (.idle true) (member .idle); s.line.state = .receiving ∧ s.line.rx = [] ∧
        ¬ (s.table.windowOpen = true ∧ s.table.windowTimer = .runOut) ∧ s.out.offer s.table.windowOpen = none) := by decide +kernel

/-- The STANDING frame of station 1. -/
def standingFrame : Frame := ⟨.standing, 1, 0, Payload.ofStanding 20 10 2 (StandingFields.ofHolding .none 0)⟩

/-- A MEMBER sending its STANDING. -/
def standingOut : State := sendingIt standingFrame .standing .standing (member .loaded)

theorem wit_AttemptsAndDrops :
    (standingOut.line.state = .sending ∧ standingOut.line.tx = some standingFrame ∧ standingFrame.dataBits[1]? = some true ∧
        standingOut.out.flight = some .standing ∧ standingOut.out.slot .standing = ⟨some ⟨.standing, 0, 0⟩, none⟩ ∧
        0 < standingOut.cfg.attemptLimit.toNat) ∧
      (let s := standingOut.setOut { standingOut.out with standing := ⟨some ⟨.standing, 0, 3⟩, none⟩ }; s.control.station = .member ∧ s.out.flight = some .standing ∧
        s.cfg.retryLimit.toNat = 3 ∧ s.out.drops < 2) := by decide +kernel

/-- A slot's entry with its counts, in flight. -/
def inFlight (id : SlotId) (e : Entry) (drops : Nat) (s : State) : State :=
  s.setOut { (s.out.setSlot id ⟨some e, none⟩) with flight := some id, drops := drops }

theorem wit_OwnFailures :
    standingOut.line.state = .sending ∧ standingOut.line.tx = some standingFrame ∧
      standingOut.control.station.takesPart = true ∧ standingOut.control.run < 15 ∧
      (let r := { readingOf .standing 1 0 standingFrame.payload with markFaultAt := some 9 }
       standingFrame.dataBits.take 9 = (r.dataBits 6).take 9 ∧
         (after (.standing r) standingOut).counter .objections = 1 ∧
         (after (.standing r) standingOut).out.standing = ⟨some ⟨.standing, 0, 1⟩, none⟩) ∧
      (let r := readingOf .standing 1 1 standingFrame.payload
       standingFrame.dataBits.take 15 = (r.dataBits 6).take 15 ∧ standingFrame.dataBits[15]? = some false ∧
         (r.dataBits 6)[15]? = some true) ∧
      (after (.voidFrame 6 (readingOf .standing 1 0 standingFrame.payload)) standingOut).out.standing
        = ⟨some ⟨.standing, 0, 1⟩, none⟩ := by decide +kernel

theorem wit_OwnFailures_drops :
    (let s := inFlight .intent ⟨.release, 0, 3⟩ 0 (member .idle)
     s.out.flight = some .intent ∧ s.out.slot .intent = ⟨some ⟨.release, 0, 3⟩, none⟩ ∧ s.cfg.retryLimit.toNat < 3 + 1 ∧
       (listFailed 1 s).out.intent = ⟨some ⟨.release, 0, 0⟩, none⟩) ∧
      (let s := inFlight .rollcall ⟨.rollcall 20 10 2, 32, 0⟩ 1 (at' .gathering .none .idle)
       s.cfg.attemptLimit.toNat < 32 + 1 ∧ (listFailed 2 s).out.drops = 2) ∧
      (let s0 := inFlight .leave ⟨.leave, 0, 3⟩ 0 (at' .leaving .none .idle)
       let s := s0.setControl { s0.control with awaited := some .leaveStation }
       s.control.station = .leaving ∧ s.own = .none ∧ s.control.awaited = some .leaveStation ∧
         (listFailed 1 s).control.station = .offline) ∧
      (let s := inFlight .standing ⟨.standing, 0, 3⟩ 2 (member .idle)
       s.out.drops = 2 ∧ s.control.station = .member ∧ (listFailed 1 s).control.isolation = some .silent) ∧
      (let s := inFlight (.expire 2) ⟨.expire 2 4, 0, 3⟩ 2 (at' .leaving .none .idle)
       s.out.drops = 2 ∧ s.control.station = .leaving ∧ SlotId.expire 2 ≠ .expire s.ownId ∧
         (listFailed 1 s).control.station = .offline) := by decide +kernel

theorem wit_HeardFramesAreTested :
    ((member .idle).ownId = 1 ∧ standingFrame.sender.toNat = (member .idle).ownId) ∧
      (({ standingFrame with sender := 0 } : Frame).sender.toNat = 0) ∧
      ((member .idle).table.rec? 2 = none ∧ FrameKind.claim ≠ .rollcall ∧ FrameKind.claim ≠ .standing) ∧
      (let s := withPeer 2 4 .none (member .idle); (s.table.rec? 2).map Rec.seq = some 4 ∧ (7 : Byte) ≠ 4 + 1) := by decide +kernel

theorem wit_HeardFramesAreTested_findings :
    (let s := withPeer 2 4 .none (member .idle)
     (s.table.rec? s.ownId).map Rec.seq = some 255 ∧
       (after (.expire (readingOf .expire 2 5 ⟨1, 255, 0, 0, 0, 0⟩)) s).control.station = .gathering) ∧
      (let s := at' .gathering .none .idle
       s.table.rec? 3 = none ∧ (20 : Byte) = s.cfg.powerBudget ∧ (21 : Byte) ≠ s.cfg.powerBudget ∧
         (after (.standing (readingOf .standing 3 5 (Payload.ofStanding 21 10 2 ⟨0, 0, 0, 0, 0, 0⟩))) s).control.isolation
           = some .budget ∧
         (after (.standing (readingOf .standing 3 5 (Payload.ofStanding 20 10 2 ⟨3, 0, 0, 0, 0, 0⟩))) s).counter .gatherRestarts
           = 1 ∧
         s.table.fits s.cfg ⟨21, 4, 0, .dry⟩ = false) ∧
      (after (.standing (readingOf .standing 3 5 (Payload.ofStanding 20 10 2 ⟨1, 0, 0, 10, 4, 5⟩))) (member .idle)).counter .resyncs
        = 1 := by decide +kernel

theorem wit_ResyncRestartIsolate :
    ((member .idle).control.station = .member ∧ (at' .gathering .none .idle).control.station = .gathering) ∧
      (let s := (member .idle).setControl { (member .idle).control with run := 15 }; s.control.station = .member ∧ s.control.run = 15) ∧
      (let s := (at' .leaving .none .idle).setControl { (at' .leaving .none .idle).control with run := 15 }; s.control.station = .leaving ∧ s.control.run = 15) ∧
      ((member .idle).control.station.takesPart = true ∧ (member .idle).control.run < 15) ∧
      (State.reset.control.station.takesPart = false) := by decide +kernel

/-- A MEMBER with a peer of id 2 whose last sequence is 4. -/
def withTwo : State := withPeer 2 4 .none (member .loaded)

theorem wit_hearing : Hearing withTwo ∧ OwnNotWaiting withTwo := ⟨⟨by decide, by decide⟩, (by decide +kernel : withTwo.own.isWaiting = false)⟩

theorem wit_from_peer (k : FrameKind) (p : Payload) : FromPeer k (readingOf k 2 5 p) withTwo := by
  refine ⟨?_, (by decide : (2 : Nat) ≠ 0), (by decide : 2 ≠ withTwo.ownId), ⟨4, .running 100, .none⟩,
    (by decide +kernel : withTwo.table.rec? 2 = some ⟨4, .running 100, .none⟩), rfl⟩
  simp [Reading.finding, Reading.crcBad, Reading.markFault, readingOf, Reading.clean]

theorem wit_ExpireRemoves :
    (let u := (withPeer 3 8 .none withTwo).table.renew 2 5 withTwo.cfg.leaseTicks; (u.rec? 3).map Rec.seq = some 8 ∧ 3 ≠ withTwo.ownId) ∧
      ((withTwo.table.renew 2 5 withTwo.cfg.leaseTicks).rec? 9 = none ∧ (withTwo.out.withdraw 2).expirePending 9 = false) := by decide +kernel

theorem wit_ClaimsAreSettled :
    ((Payload.ofRequest dryShare).request? = some dryShare ∧ ¬ ((Payload.ofRequest dryShare).p0 = 0)) ∧
      (Payload.zero.p0 = 0 ∧ Payload.zero.p1 = 0 ∧ Payload.zero.p2 = 0) ∧
      (({ Payload.zero with p0 := 64 } : Payload).request? = none) ∧
      (withTwo.cfg.powerBudget.toNat < 21) ∧
      ((withPeer 2 4 (.admitted ⟨12, 4, 0, .dry⟩) (member .loaded)).table.holding 2 = .admitted ⟨12, 4, 0, .dry⟩) ∧
      (let g := (withTwo.table.renew 2 5 withTwo.cfg.leaseTicks).giveUp 2; g.queue = [] ∧ g.fits withTwo.cfg dryShare = true) ∧
      (let g := ((withPeer 2 4 .none (admitted .complete)).table.renew 2 5 withTwo.cfg.leaseTicks).giveUp 2; g.fits withTwo.cfg ⟨15, 4, 0, .dry⟩ = false) := by decide +kernel

/-- A MEMBER whose own record waits behind the share of station 2. -/
def waitsBehindTwo (e : EngineState) : State :=
  let s := withPeer 2 4 (.admitted ⟨15, 4, 0, .dry⟩) (at' .member (.waiting dryShare none) e)
  s.setTable { s.table with queue := [1] }

theorem wit_HeardFrameAdmitsOwn :
    (waitsBehindTwo (.running .waiting)).own.isWaiting = true ∧ (waitsBehindTwo (.running .waiting)).control.station = .member ∧
      (let s := waitsBehindTwo (.running .waiting)
       let t := after (.release (readingOf .release 2 5 Payload.zero)) s
       t.table.holding 1 = .admitted dryShare ∧ t.engine.state = .running .active ∧ t.port.ring.seq = 1) ∧
      (let s := waitsBehindTwo (.running .waiting)
       (after (.claim (readingOf .claim 2 5 (Payload.ofRequest ⟨14, 4, 0, .dry⟩))) s).table.holding 1 = .waiting dryShare none) ∧
      (let s := withPhases [{ dryPhase with power := 12 }] (waitsBehindTwo (.running .waiting))
       (after (.leave (readingOf .leave 2 5 Payload.zero)) s).engine.state = .running .claiming) ∧
      ((after (.rollcall (readingOf .rollcall 2 9 ⟨20, 10, 2, 0, 0, 0⟩)) (waitsBehindTwo .complete)).table.holding 1
        = .admitted dryShare) := by decide +kernel

theorem wit_ScanAndPools :
    (waitsBehindTwo .idle).table.queue = [1] ∧ (waitsBehindTwo .idle).table.holding 1 = .waiting dryShare none ∧
      (waitsBehindTwo .idle).table.fits cfgA dryShare = false ∧
      ((waitsBehindTwo .idle).table.remove 2).fits cfgA dryShare = true ∧ Table.reset.queue = [] := by decide +kernel

theorem wit_RollcallResetsItsSender :
    (let r := readingOf .rollcall 3 9 ⟨20, 10, 2, 0, 0, 0⟩; r.finding FrameKind.rollcall.code = false ∧ r.sender.toNat ≠ 0 ∧ r.sender.toNat ≠ withTwo.ownId ∧
        withTwo.table.rec? 3 = none ∧ r.payload.p0 = withTwo.cfg.powerBudget ∧ r.payload.p1 = withTwo.cfg.ventBudget ∧
        r.payload.p2 = withTwo.cfg.fillBudget) ∧
      ((withTwo.table.rec? 2).isSome = true) ∧
      ((21 : Byte) ≠ withTwo.cfg.powerBudget) := by decide +kernel

theorem wit_StandingsCompareOrAdd :
    (let r := readingOf .standing 2 5 (Payload.ofStanding 20 10 2 ⟨0, 0, 0, 0, 0, 0⟩); r.finding FrameKind.standing.code = false ∧
        (withTwo.table.rec? 2).map Rec.seq = some 4 ∧ disagrees r.payload.standingFields .none 0 = false) ∧
      (let r := readingOf .standing 2 5 (Payload.ofStanding 20 10 2 ⟨1, 0, 0, 10, 4, 5⟩); disagrees r.payload.standingFields .none 0 = true) ∧
      (withTwo.table.rec? 3 = none ∧ (Payload.ofStanding 20 10 2 ⟨0, 0, 0, 0, 0, 0⟩).standingFields.standing = 0) ∧
      (let s := at' .gathering .none .idle; let c := (Payload.ofStanding 20 10 2 ⟨1, 0, 0, 10, 4, 5⟩).standingFields; s.table.rec? 3 = none ∧ s.control.station = .gathering ∧ c.malformed = false ∧ PhaseKind.ofCode? c.kind = some .dry ∧
        c.standing = 1 ∧ s.table.fits s.cfg dryShare = true) ∧
      (let c := (Payload.ofStanding 20 10 2 ⟨2, 0, 1, 10, 4, 5⟩).standingFields; c.malformed = false ∧ PhaseKind.ofCode? c.kind = some .dry ∧ c.standing = 2) ∧
      ((21 : Byte) ≠ withTwo.cfg.powerBudget ∧ withTwo.control.station ≠ .gathering ∧ withTwo.control.station = .member) ∧
      ((at' .gathering .none .idle).table.fits cfgA ⟨21, 4, 0, .dry⟩ = false) := by decide +kernel

theorem wit_OwnFramesAdvanceTheSequence :
    ReadsBack standingFrame (readingOf .standing 1 0 standingFrame.payload) standingOut ∧
      standingOut.table.rec? standingOut.ownId = some ⟨255, .stopped, .none⟩ ∧ standingOut.out.flight = some .standing ∧
      standingOut.out.slot .standing = ⟨some ⟨.standing, 0, 0⟩, none⟩ :=
  ⟨⟨by decide, by decide +kernel, by decide +kernel, by decide⟩, by decide +kernel, by decide, by decide⟩

/-- The RELEASE of a leaving station on the line. -/
def releaseOut : State := sendingIt ⟨.release, 1, 0, Payload.zero⟩ .intent .release (at' .gathering .none .idle)

theorem wit_OwnFramesAdvanceTheSequence_release :
    ReadsBack ⟨.release, 1, 0, Payload.zero⟩ (readingOf .release 1 0 Payload.zero) releaseOut ∧
      releaseOut.table.rec? releaseOut.ownId = some ⟨255, .stopped, .none⟩ ∧ releaseOut.out.flight = some .intent ∧
      releaseOut.out.slot .intent = ⟨some ⟨.release, 0, 0⟩, none⟩ ∧ releaseOut.control.station ≠ .member :=
  ⟨⟨by decide, by decide +kernel, by decide +kernel, by decide⟩, by decide +kernel, by decide, by decide, by decide⟩

/-- The CLAIM of the DRY phase on the line, the engine CLAIMING. -/
def claimOut : State :=
  sendingIt ⟨.claim, 1, 0, Payload.ofRequest dryShare⟩ .intent (.claim dryShare) (member (.running .claiming))

theorem wit_OwnClaimReachesTheEngine :
    ReadsBack ⟨.claim, 1, 0, Payload.ofRequest dryShare⟩ (readingOf .claim 1 0 (Payload.ofRequest dryShare)) claimOut ∧
      claimOut.control.station = .member ∧ claimOut.engine.state = .running .claiming ∧
      claimOut.table.rec? claimOut.ownId = some ⟨255, .stopped, .none⟩ ∧ claimOut.table.queue = [] ∧
      claimOut.out.flight = some .intent ∧ claimOut.out.intent = ⟨some ⟨.claim dryShare, 0, 0⟩, none⟩ ∧
      (Payload.ofRequest dryShare).request? = some dryShare ∧ dryShare = claimOut.engine.current.request ∧
      (Payload.ofRequest dryShare).zeroRequest = false ∧ claimRefused claimOut.cfg (Payload.ofRequest dryShare) = false ∧
      claimOut.table.fits claimOut.cfg dryShare = true :=
  ⟨⟨by decide, by decide +kernel, by decide +kernel, by decide⟩, by decide +kernel⟩

/-- An own frame of a kind in flight. -/
def ownOut (k : FrameKind) (p : Payload) (id : SlotId) (c : Content) (s : State) : State := sendingIt ⟨k, 1, 0, p⟩ id c s

theorem wit_OwnFramesOfEveryKind (k : FrameKind) (p : Payload) (id : SlotId) (c : Content) (s : State)
    (h : s.control.station.takesPart = true) :
    ReadsBack ⟨k, 1, 0, p⟩ (readingOf k 1 0 p) (ownOut k p id c s) := by
  refine ⟨rfl, rfl, ?_, h⟩
  simp [readingOf, Reading.clean]

theorem wit_OwnFramesOfEveryKind_cases :
    (let s := ownOut .release Payload.zero .intent .release (admitted (.running .active))
     s.out.flight = some .intent ∧ s.out.slot .intent = ⟨some ⟨.release, 0, 0⟩, none⟩ ∧
       (after (.release (readingOf .release 1 0 Payload.zero)) s).engine.state = .running .claiming) ∧
      (let s := ownOut .rollcall ⟨20, 10, 2, 0, 0, 0⟩ .rollcall (.rollcall 20 10 2) (at' .gathering .none .idle)
       s.out.slot .rollcall = ⟨some ⟨.rollcall 20 10 2, 0, 0⟩, none⟩ ∧
         (after (.rollcall (readingOf .rollcall 1 0 ⟨20, 10, 2, 0, 0, 0⟩)) s).control.answered = true) ∧
      (let s0 := ownOut .leave Payload.zero .leave .leave (at' .leaving .none .idle)
       let s := s0.setControl { s0.control with awaited := some .leaveStation }
       s.control.station = .leaving ∧ s.own = .none ∧
         (after (.leave (readingOf .leave 1 0 Payload.zero)) s).control.station = .offline) ∧
      (let s := ownOut .expire ⟨2, 4, 0, 0, 0, 0⟩ (.expire 2) (.expire 2 4) withTwo
       s.out.slot (.expire 2) = ⟨some ⟨.expire 2 4, 0, 0⟩, none⟩ ∧ (s.table.rec? 2).map Rec.seq = some 4 ∧
         (after (.expire (readingOf .expire 1 0 ⟨2, 4, 0, 0, 0, 0⟩)) s).table.rec? 2 = none) ∧
      (let s := ownOut .expire ⟨3, 4, 0, 0, 0, 0⟩ (.expire 3) (.expire 3 4) withTwo
       s.table.rec? 3 = none ∧
         (after (.expire (readingOf .expire 1 0 ⟨3, 4, 0, 0, 0, 0⟩)) s).counter .staleExpiries = 1) := by decide +kernel

theorem wit_UndefinedKindsAreCounted :
    ((member .idle).line.state = .idle) ∧
      ((Reading.clean 7 2 0 Payload.zero).finding 7 = false ∧ (7 : BitVec 4).toNat = 7) ∧
      ((Reading.clean 15 2 0 Payload.zero).finding 15 = false) ∧
      ((Reading.clean 0 2 0 Payload.zero).finding 0 = false ∧ (0 : BitVec 4).toNat = 0) ∧
      (({ Reading.clean 4 2 0 Payload.zero with markFaultAt := some 79 } : Reading).markFaultAt ≠ none ∧ (member .idle).control.station.takesPart = true ∧
        (member .idle).control.run < 15) ∧
      (let r : Reading := { Reading.clean 4 2 0 Payload.zero with slot1Fault := true }
       r.check = checkOf 4 r.sender r.seq r.payload ∧ (after (.voidFrame 4 r) (member .idle)).line.slot = .objectedSecond) ∧
      (let r : Reading := { Reading.clean 4 2 0 Payload.zero with slot2Fault := true }
       (after (.voidFrame 4 r) (member .idle)).counter .objections = 0) ∧
      ((at' .isolated .none .idle).control.station = .isolated ∧ (at' .isolated .none .idle).line.state = .idle ∧
        ({ Reading.clean 4 2 0 Payload.zero with check := 0 } : Reading).check ≠ checkOf 4 2 0 Payload.zero) := by decide +kernel

theorem wit_LeasesRunOut :
    (withTwo.table.rec? 2 = some ⟨4, .running 100, .none⟩ ∧ withTwo.control.station.takesPart = true ∧ 2 ≠ withTwo.ownId) ∧
      ((withTwo.setTable { withTwo.table with renewal := .running 0 }).table.renewal.isRunning = true) ∧
      ((withTwo.setTable { withTwo.table with windowTimer := .running 0 }).table.windowTimer.isRunning = true) ∧
      (let s := withTwo.setControl { withTwo.control with memberTimer := .running 0 }; s.control.memberTimer.isRunning = true ∧ s.control.station = .member) := by decide +kernel

theorem wit_SelfLeaseAndAutoRejoin :
    (let s := withTwo.setTable { withTwo.table with selfLease := .running 0 }; s.table.selfLease.isRunning = true ∧ s.control.station = .member) ∧
      (let s0 := at' .gathering .none .idle; let s := s0.setTable { s0.table with selfLease := .running 0 }; s.table.selfLease.isRunning = true ∧ s.control.station ≠ .member) ∧
      (let s0 := at' .isolated .none .idle; let s := s0.setControl { s0.control with rejoinTimer := .running 0, rejoins := 2 }; s.control.rejoinTimer.isRunning = true ∧ s.control.station = .isolated ∧ s.control.rejoins < 3) ∧
      (let s0 := at' .isolated .none .idle; let s := s0.setControl { s0.control with rejoinTimer := .running 0, rejoins := 3 }; s.control.rejoinTimer.isRunning = true ∧ 3 ≤ s.control.rejoins) := by decide +kernel

theorem wit_ConditionsFault :
    (let m : Sample := ⟨some 171, none, .low, true⟩; (admitted (.running .active)).engine.state = .running .active ∧
        overTempAt (admitted (.running .active)).engine m = true) ∧
      (overTempAt { Engine.reset with maxTemp := 60 } ⟨some 170, none, .ok, true⟩ = false) ∧
      (overTempAt (member .idle).engine ⟨some 131, none, .ok, true⟩ = true ∧ overTempAt (member .idle).engine ⟨some 130, none, .ok, true⟩ = false) ∧
      (let s := (heldBy' ⟨true, false, false⟩ (member .held)).setMeas { calm with airBad := 2 }
       s.engine.state = .held ∧ sensorAt (runCount false s.meas.airBad) (runCount true s.meas.humBad) = true) ∧
      (let s := withPhases [steamPhase] (admitted (.running .active))
       noWaterAt s.engine ⟨some 50, some 50, .empty, false⟩ = true ∧
         (sampleStep true ⟨some 171, none, .empty, false⟩ (s.setMeas { calm with humBad := 2 })).fault.map FaultRecord.later
           = some 2) := by decide +kernel

theorem wit_SamplesAreStored :
    (pins.sensors.tsens = .measured 2500) ∧ ((-1000 : Int) ≤ -1000 ∧ (-1001 : Int) < -1000 ∧ (12000 : Int) < 12001) := by
  decide +kernel

theorem wit_SamplesDriveTheEngine :
    (let s := admitted (.running .active); let m := s.meas.sample
     overTempAt s.engine m = false ∧ noWaterAt s.engine m = false ∧
       sensorAt (runCount m.air.isSome s.meas.airBad) (runCount m.hum.isSome s.meas.humBad) = false) ∧
      (let s := withPhases [{ dryPhase with stop := .temp, temp := 25, duration := 0, limit := 600 }] (admitted (.running .active))
       s.engine.state = .running .active ∧ s.engine.current.endMet s.meas.sample = true ∧
         (endTest s).engine.state = .complete) ∧
      (let s := (admitted (.running .active)).setMeas { calm with sample := ⟨some 50, some 40, .low, true⟩ }
       s.meas.sample.tankFull = true ∧ s.engine.current.kind = .dry ∧ s.meas.lowReported = false ∧
         s.meas.sample.reservoir = .low ∧ s.engine.state.underWay = true ∧ (tankTest s).engine.state = .held) ∧
      (let s := heldBy' ⟨false, false, true⟩ (member .held)
       s.engine.state = .held ∧ s.engine.holds.tank = true ∧ s.meas.sample.tankFull = false ∧
         (tankTest s).engine.state = .running .claiming) ∧
      (heldBy' ⟨true, false, true⟩ (member .held)).engine.holds.host = true := by decide +kernel

theorem wit_HeaterAndSteamSteps :
    (((97 : Int) < 2 * ((50 : Nat) : Int) - 2) ∧ (2 * ((50 : Nat) : Int) + 2 < (103 : Int)) ∧ (2 * ((50 : Nat) : Int) - 2 ≤ (98 : Int)) ∧ ((102 : Int) ≤ 2 * ((50 : Nat) : Int) + 2)) ∧
      (({ Load.reset with latch := true } : Load).latch = true ∧ Load.reset.latch = false) ∧
      (60 ≤ 60 ∧ 59 < 60 ∧ 56 + 3 < 60 ∧ 60 ≤ 57 + 3) ∧
      ((refresh (admitted (.running .active))).load.gate = true ∧
        (refresh (admitted (.running .active))).load.request = .phase 0 dryPhase) := by decide +kernel

theorem wit_DoorEdgesAndChanges :
    (let s := (admitted (.running .active)).setMeas { calm with doorPinClosed := false, debounce := .running 0 }; s.meas.debounce.isRunning = true ∧ s.meas.doorPinClosed = false ∧ s.engine.state = .running .active ∧ s.purgeStarts = true) ∧
      (let s := (member (.running .waiting)).setMeas { calm with doorPinClosed := false, debounce := .running 0 }; s.meas.debounce.isRunning = true ∧ s.engine.state = .running .waiting ∧ s.purgeStarts = false) ∧
      ((member .idle).engine.state.underWay = false) ∧
      (let s := (heldBy' ⟨true, false, false⟩ (member .held)).setMeas { calm with doorPinClosed := false, debounce := .running 0 }
       s.meas.doorPinClosed = false ∧ s.engine.state = .held) ∧
      (let s := (heldBy' ⟨true, true, false⟩ (member .held)).setMeas { calm with debounce := .running 0 }
       s.meas.doorPinClosed = true ∧ s.engine.holds.door = true ∧ s.engine.purge.isRunning = false) ∧
      (let s := (heldBy' ⟨false, true, false⟩ (member .held)).setMeas { calm with debounce := .running 0 }
       s.engine.holds = ⟨false, true, false⟩ ∧ (after .doorChange s).engine.state = .running .claiming) := by decide +kernel

theorem wit_PurgesAndPhasesEnd :
    (let s := (heldBy' ⟨false, true, false⟩ (admitted .held)); let u := s.setEngine { s.engine with purge := .running 0 }; u.engine.state = .held ∧ u.engine.purge.isRunning = true) ∧
      (let s := admitted (.running .active); s.engine.state = .running .active ∧ s.engine.current.stop = .time ∧ s.engine.phases.length ≤ s.engine.index + 1) ∧
      (let s0 := admitted (.running .active); let s := s0.setEngine { s0.engine with phases := [{ dryPhase with stop := .humid, hum := 10, duration := 0, limit := 900 }] }; s.engine.current.stop ≠ .time ∧ s.engine.current.onLimitFault = false ∧ s.engine.phases.length ≤ s.engine.index + 1) ∧
      (let s0 := admitted (.running .active); let s := s0.setEngine { s0.engine with phases := [{ dryPhase with stop := .humid, onLimitFault := true, hum := 10, duration := 0, limit := 900 }] }; s.engine.current.stop ≠ .time ∧ s.engine.current.onLimitFault = true) := by decide +kernel

theorem wit_AnswerNone :
    ((member (.running .claiming)).engine.state = .running .claiming) ∧
      ((member (.running .waiting)).engine.state = .running .waiting ∧ (member (.running .waiting)).control.station = .member) ∧
      ((admitted (.running .active)).engine.current.request.isZero = false) ∧
      (let s0 := admitted (.running .active); let s := s0.setEngine { s0.engine with phases := [{ dryPhase with power := 0, vent := 0 }] }; s.engine.state = .running .active ∧ s.engine.current.request.isZero = true) ∧
      ((member (.running .regain)).engine.state = .running .regain) := by decide +kernel

theorem wit_AnswersFromTheBank :
    (let s := admitted (.running .waiting); s.engine.state = .running .waiting ∧ s.own.coversRequest s.engine.current.request = true) ∧
      (let s := admitted (.running .active); s.engine.state = .running .active ∧ s.own.coversRequest s.engine.current.request = true) ∧
      (let s := member (.running .claiming); s.engine.state = .running .claiming ∧ s.own.coversRequest s.engine.current.request = false) ∧
      (let s := member (.running .waiting); s.engine.state = .running .waiting ∧ s.own.coversRequest s.engine.current.request = false) ∧
      ((admitted (.running .active)).engine.current.request.isZero = false) ∧
      ((member .held).engine.state = .held) ∧
      ((member .complete).engine.state.underWay = false) ∧
      (let s := member (.running .active); s.engine.state = .running .active ∧ s.own.coversRequest s.engine.current.request = false) ∧
      (let s := heldBy' ⟨false, true, false⟩ (admitted .held); let u := s.setEngine { s.engine with purge := .running 5 }
       u.engine.purge.isRunning = true ∧ 0 < u.own.held Share.vent) ∧
      (let s := heldBy' ⟨false, true, false⟩ (member .held); let u := s.setEngine { s.engine with purge := .running 5 }
       u.engine.purge.isRunning = true ∧ u.own.held Share.vent = 0) := by decide +kernel

/-! ## Further clauses -/

theorem test_standing_none_with_power_is_malformed :
    (Payload.ofStanding 20 10 2 ⟨0, 0, 0, 64, 0, 0⟩).standingFields.malformed = true ∧
      (Payload.ofStanding 20 10 2 ⟨0, 2, 0, 0, 0, 0⟩).standingFields.malformed = true ∧
      (Payload.ofStanding 20 10 2 ⟨0, 1, 0, 63, 31, 0⟩).standingFields.malformed = false ∧
      (after (.standing (readingOf .standing 3 5 (Payload.ofStanding 20 10 2 ⟨0, 0, 0, 64, 0, 0⟩))) (member .idle)).counter .resyncs
        = 1 ∧
      (after (.standing (readingOf .standing 3 5 (Payload.ofStanding 20 10 2 ⟨0, 0, 0, 63, 0, 0⟩))) (member .idle)).table.holding 3
        = .none := by decide +kernel

theorem test_start_bit_fault :
    let r := { readingOf .standing 1 0 standingFrame.payload with startFault := true }
    (after (.standing r) standingOut).out.standing = ⟨some ⟨.standing, 0, 1⟩, none⟩ ∧
      (after (.standing r) standingOut).counter .ownVoided = 1 ∧ (after (.standing r) standingOut).line.slot = .objected := by
  decide +kernel

theorem wit_OwnFailures_slot_and_loss :
    (let r := { readingOf .standing 1 0 standingFrame.payload with slot1Fault := true }
     (after (.standing r) standingOut).line.slot = .objectedSecond ∧ (after (.standing r) standingOut).counter .ownVoided = 1) ∧
      (let r := { readingOf .standing 1 0 standingFrame.payload with slot2Fault := true }
       r.slot1Fault = false ∧ (after (.standing r) standingOut).line.slot = .none ∧
         (after (.standing r) standingOut).counter .objections = 0 ∧ (after (.standing r) standingOut).counter .ownVoided = 1) ∧
      (let r := readingOf .claim 2 5 Payload.zero
       r.startFault = false ∧ r.markFaultAt = none ∧ standingFrame.dataBits.take 2 = (r.dataBits 4).take 2 ∧
         standingFrame.dataBits[2]? = some true ∧ (r.dataBits 4)[2]? = some false ∧
         (after (.claim r) standingOut).counter .arbitrationLosses = 1) := by decide +kernel

theorem wit_WindowCloseEndsGathering_entered :
    (let s0 := windowOver true
     let s := (s0.setControl { s0.control with awaited := some .startStation }).setTable { s0.table with renewal := .runOut }
     s.control.station = .gathering ∧ s.control.answered = true ∧ s.table.selfLease ≠ .runOut ∧
       s.engine.state ≠ .running .regain ∧ (after (.idle true) s).port.ring.seq = 2 ∧
       (after (.idle false) s).line.state = .sending ∧ (after (.idle false) s).control.awaited = none) ∧
      (let s := (windowOver true).setTable { (windowOver true).table with selfLease := .runOut }
       s.table.selfLease = .runOut ∧ (after (.idle false) s).control.station = .gathering ∧
         (after (.idle false) s).counter .resyncs = 1) ∧
      (let s := (windowOver true).setEngine { (windowOver true).engine with state := .running .regain }
       s.engine.state = .running .regain ∧ (after (.idle true) s).engine.state = .running .claiming) ∧
      (let s := (windowOver true).setControl { (windowOver true).control with station := .member }
       s.control.station ≠ .gathering ∧ (after (.idle false) s).table.windowOpen = false) := by decide +kernel

theorem wit_ExpireRemoves_posted_again :
    let s0 := withTwo.setTable (withTwo.table.put 3 (some ⟨8, .runOut, .none⟩))
    let s := s0.setOut (s0.out.post (.expire 3) (.expire 3 8))
    let u := s.table.renew 2 5 s.cfg.leaseTicks
    u.rec? 3 = some ⟨8, .runOut, .none⟩ ∧ (7 : Byte) ≠ 8 ∧ (s.out.withdraw 2).expirePending 3 = true ∧ 3 ≠ s.ownId ∧
      (after (.expire (readingOf .expire 2 5 ⟨3, 7, 0, 0, 0, 0⟩)) s).out.slot (.expire 3) = ⟨some ⟨.expire 3 8, 0, 0⟩, none⟩ ∧
      (let w := s0.setTable (s0.table.put 3 (some ⟨8, .running 9, .none⟩))
       let v := w.setOut (w.out.post (.expire 3) (.expire 3 8))
       (v.out.withdraw 2).expirePending 3 = true ∧
         (after (.expire (readingOf .expire 2 5 ⟨3, 7, 0, 0, 0, 0⟩)) v).out.slot (.expire 3) = ⟨none, none⟩) := by
  decide +kernel

/-- A station whose frame runs on after its entry was discarded. -/
def discarded (s : State) : State := s.setOut s.out.emptied

theorem wit_OwnFrames_discarded :
    (discarded standingOut).out.flight = none ∧ (after (.standing (readingOf .standing 1 0 standingFrame.payload)) (discarded standingOut)).out
        = { (discarded standingOut).out with seq := 1, drops := 0 } ∧
      (discarded releaseOut).out.flight = none ∧
      (let s := discarded (ownOut .rollcall ⟨20, 10, 2, 0, 0, 0⟩ .rollcall (.rollcall 20 10 2) (at' .gathering .none .idle))
       s.out.flight = none ∧ (after (.rollcall (readingOf .rollcall 1 0 ⟨20, 10, 2, 0, 0, 0⟩)) s).control.answered = true) ∧
      (discarded claimOut).out.flight = none := by decide +kernel

theorem wit_OwnClaimReachesTheEngine_settled :
    (let s := sendingIt ⟨.claim, 1, 0, Payload.ofRequest ⟨30, 4, 0, .dry⟩⟩ .intent (.claim dryShare) (member (.running .claiming))
     let t := after (.claim (readingOf .claim 1 0 (Payload.ofRequest ⟨30, 4, 0, .dry⟩))) s
     t.engine.state = .faulted ∧ t.own = .none) ∧
      (let s := sendingIt ⟨.claim, 1, 0, Payload.zero⟩ .intent (.claim dryShare) (admitted (.running .claiming))
       (after (.claim (readingOf .claim 1 0 Payload.zero)) s).own = .none) ∧
      (let s0 := waitsBehindTwo (.running .claiming)
       let s := sendingIt ⟨.claim, 1, 0, Payload.ofRequest dryShare⟩ .intent (.claim dryShare) s0
       let t := after (.claim (readingOf .claim 1 0 (Payload.ofRequest dryShare))) s
       t.own = .waiting dryShare none ∧ t.engine.state = .running .waiting) ∧
      (let s := sendingIt ⟨.claim, 1, 0, Payload.ofRequest ⟨5, 4, 0, .dry⟩⟩ .intent (.claim dryShare) (admitted (.running .claiming))
       (after (.claim (readingOf .claim 1 0 (Payload.ofRequest ⟨5, 4, 0, .dry⟩))) s).own = .admitted ⟨5, 4, 0, .dry⟩) ∧
      (let s := sendingIt ⟨.claim, 1, 0, Payload.ofRequest dryShare⟩ .intent (.claim dryShare) (at' .gathering .none (.running .regain))
       (after (.claim (readingOf .claim 1 0 (Payload.ofRequest dryShare))) s).engine.state = .running .regain) := by
  decide +kernel

theorem wit_ClaimsAreSettled_malformed :
    (¬ ((10 : Byte) = 0) ∧ (63 : Nat) < (64 : Byte).toNat ∧ (31 : Nat) < (32 : Byte).toNat ∧ (1 : Nat) < (2 : Byte).toNat ∧
        (0 : Byte).toNat < 1 ∧ 7 < (8 : Byte).toNat) ∧
      PhaseKind.dry.code = ((Payload.ofRequest dryShare).p3).toNat ∧ dryShare.power = ((Payload.ofRequest dryShare).p0).toNat := by
  decide +kernel

theorem wit_UndefinedKindsAreCounted_rows :
    (let r := { readingOf .claim 2 5 (Payload.ofRequest dryShare) with check := 0 }
     r.check ≠ checkOf 4 2 5 (Payload.ofRequest dryShare) ∧ (after (.claim r) withTwo).counter .objections = 1 ∧
       (after (.claim r) withTwo).counter .framesApplied = 0) ∧
      (let r := readingOf .claim 2 5 (Payload.ofRequest dryShare)
       let s := withTwo.setControl { withTwo.control with station := .isolated }
       r.finding 4 = false ∧ s.control.station = .isolated ∧ (after (.claim r) s).table = s.table ∧
         (after (.claim r) s).line.state = .waitIdle) ∧
      (let s := withTwo.setLine { withTwo.line with state := .waitIdle, recessive := 3 }
       (after (.leave (readingOf .leave 2 5 Payload.zero)) s).line.recessive = 0) ∧
      (after (.leave (readingOf .leave 2 5 Payload.zero)) State.reset).line = State.reset.line := by decide +kernel

theorem wit_HeaterAndSteamSteps_follow :
    (let s := admitted (.running .active)
     s.gateOpen = true ∧ s.engine.loadRequest = .phase 0 dryPhase ∧ s.load.gate = false ∧ (refresh s).load.vent = 4 ∧
       (refresh s).load.fan = true ∧ (refresh (refresh s)).load.vent = 4) ∧
      (let s0 := withPhases [steamPhase] (admitted (.running .active))
       let s := { s0 with cfg := { s0.cfg with steamCount := 2, steamRating := 3 } }
       s.gateOpen = true ∧ s.engine.current.kind = .steam ∧ (refresh s).load.latch = true ∧ (refresh s).load.steam = 2 ∧
         (refresh s).load.gate = true ∧ (refresh (refresh s)).load.steam = 2) ∧
      (let s0 := heldBy' ⟨false, true, false⟩ (admitted .held)
       let s := s0.setEngine { s0.engine with purge := .running 5 }
       s.gateOpen = true ∧ s.engine.loadRequest = .purge ∧ (refresh s).load.vent = 4) ∧
      ((member .idle).gateOpen = false) ∧
      (let s := withPhases [{ dryPhase with kind := .fill, stop := .level, temp := 0 }]
         (at' .member (.admitted ⟨0, 0, 1, .fill⟩) (.running .active))
       s.gateOpen = true ∧ s.engine.current.kind = .fill ∧ (refresh s).load.valve = true ∧ (refresh s).load.fan = false) := by
  decide +kernel

theorem wit_LoadedPhasesAreSound_class :
    (CareClass.isValid ⟨30, 1, 2, 88⟩ = true ∧ CareClass.isValid ⟨75, 0, 0, 1⟩ = true) ∧
      (CareClass.isValid ⟨29, 1, 0, 1⟩ = false ∧ CareClass.isValid ⟨76, 1, 0, 1⟩ = false ∧ CareClass.isValid ⟨30, 2, 0, 1⟩ = false ∧
        CareClass.isValid ⟨30, 1, 2, 89⟩ = false ∧ CareClass.isValid ⟨30, 1, 0, 0⟩ = false) := by decide +kernel

end Sys2Proof.Tests
end

section
/-! SUPPORT. What a command leaves once the Load Drive has followed it: the frames of the statements, from the masks
of Laws/Outside.lean and Laws/EngineLaws.lean. -/

namespace Sys2Proof.Machine

/-! ## Counters -/

/-- States with the same counters count the same. -/
theorem State.counter_congr {s t : State} (h : t.port.counters = s.port.counters) (c : Counter) :
    t.counter c = s.counter c := by
  simp only [State.counter, h]

/-- One count changes one counter. -/
theorem counter_of_bump {s u : State} {c : Counter} (h : u.port.counters = (bump c s).port.counters) :
    u.counter c = satInc (s.counter c) := by
  simp [State.counter_congr h]

/-- One count leaves the other counters. -/
theorem keepsCounters_of_bump {s u : State} {c : Counter} (h : u.port.counters = (bump c s).port.counters) :
    KeepsCounters [c] s u := by
  intro x hx
  have hne : x ≠ c := by simpa using hx
  simp [State.counter_congr h, hne]

/-! ## The frames of the statements -/

/-- What the mask of Laws/Outside.lean leaves is the base. -/
theorem keepsBase_of_outside {s u : State} (h : u.outside = s.outside) : KeepsBase s u :=
  ⟨outside_pending h, outside_free h, outside_cfg h⟩

/-- What the mask of Laws/Outside.lean leaves of the port is everything but the ring and the counters. -/
theorem keepsPort_of_outside {s u : State} (h : u.outside = s.outside) : KeepsPort s u := by
  have hp : ({ u.port with ring := Ring.reset, counters := Vector.replicate 16 0 } : Port) =
      { s.port with ring := Ring.reset, counters := Vector.replicate 16 0 } := congrArg State.port h
  exact congrArg (fun p : Port => { p with ring := s.port.ring, counters := s.port.counters }) hp

theorem keepsBase_refresh {s u : State} (h : u.outside = s.outside) : KeepsBase s (refresh u) :=
  (keepsBase_of_outside h :)

theorem keepsPort_refresh {s u : State} (h : u.outside = s.outside) : KeepsPort s (refresh u) :=
  (keepsPort_of_outside h :)

/-- The Load Drive follows a state whose outputs are still the old ones. -/
theorem loadsFollow_refresh {s u : State} (h : u.outside = s.outside) : LoadsFollow s (refresh u) := by
  have hl : ({ refresh u with load := s.load } : State) = u := by rw [← outside_load h]; rfl
  unfold LoadsFollow
  rw [hl]
  rfl

/-- The cabinet side is unchanged where the engine's side and the mask are. -/
theorem keepsCabinet_refresh {s u : State} (h : u.outside = s.outside) (he : u.engineSide = s.engineSide) :
    KeepsCabinet s (refresh u) := by
  obtain ⟨hengine, hfault⟩ := Prod.mk.inj he
  exact ⟨hengine, (outside_meas h :), hfault⟩

/-- The three frames that most statements end with. -/
theorem keeps_refresh {s u : State} (h : u.outside = s.outside) (he : u.engineSide = s.engineSide) :
    KeepsCabinet s (refresh u) ∧ KeepsBase s (refresh u) ∧ LoadsFollow s (refresh u) :=
  ⟨keepsCabinet_refresh h he, keepsBase_refresh h, loadsFollow_refresh h⟩

end Sys2Proof.Machine
end

section
/-! SUPPORT. The line at an idle, a false start and an abandoned frame (R4, R5, R6, R20), and the statements about
them. -/

namespace Sys2Proof.Machine

/-! ## The rows -/

theorem exec_idle (d : Bool) (s : State) : exec (.idle d) s = .next (refresh (idleReached d s)) := rfl
theorem exec_falseStart (s : State) : exec .falseStart s = .next (refresh (falseStarted s)) := rfl
theorem exec_abandonedFrame (d : Bool) (s : State) :
    exec (.abandonedFrame d) s = .next (refresh (frameAbandoned d s)) := rfl

/-! ## An idle -/

/-- The interface at a completed idle (R4). -/
def Line.atIdle (l : Line) : Line := { l with state := .idle, recessive := 5, phase := 0, rx := [] }

/-- No window closes unless one is open and its timer has run out (R61). -/
theorem closeWindow_of_not {s : State} (h : ¬ (s.table.windowOpen = true ∧ s.table.windowTimer = .runOut)) :
    closeWindow s = s := if_neg h

/-- A peer's start is deferred to: the interface is RECEIVING and nothing else changes (R6). -/
theorem atIdle_deferred {s : State} (h : ¬ (s.table.windowOpen = true ∧ s.table.windowTimer = .runOut)) :
    atIdle true s = s.setLine { s.line with state := .receiving, recessive := 0, phase := 0, rx := [] } := by
  have hw : closeWindow (s.setLine s.line.atIdle) = s.setLine s.line.atIdle := closeWindow_of_not h
  exact congrArg hearStart hw

/-- Without a deferral and with no window to close, an idle is the start of what is offered (R6). -/
theorem atIdle_not_deferred {s : State} (h : ¬ (s.table.windowOpen = true ∧ s.table.windowTimer = .runOut)) :
    atIdle false s = sendStart (s.setLine s.line.atIdle) := by
  have hw : closeWindow (s.setLine s.line.atIdle) = s.setLine s.line.atIdle := closeWindow_of_not h
  exact congrArg sendStart hw

/-- Nothing is sent where nothing is sendable, nor by a station that does not take part (R18, R30). -/
theorem sendStart_of_nothing {s : State}
    (h : s.out.offer s.table.windowOpen = none ∨ s.control.station.takesPart = false) : sendStart s = s := by
  unfold sendStart
  rcases h with h | h <;> simp [h]

/-- The offered entry begins its frame (R6, R8, R24). -/
theorem sendStart_of_offer {s : State} {id : SlotId} {e : Entry} (ho : s.out.offer s.table.windowOpen = some id)
    (he : (s.out.slot id).entry = some e) (hp : s.control.station.takesPart = true) :
    sendStart s = (s.setLine { s.line with state := .sending, tx := some (s.frameOf e.content), phase := 0 }).setOut
      { s.out with flight := some id } := by
  simp [sendStart, hp, ho, he]

/-- An idle with nothing to send leaves the interface IDLE (R4). -/
theorem atIdle_quiet {s : State} (h : ¬ (s.table.windowOpen = true ∧ s.table.windowTimer = .runOut))
    (hn : s.out.offer s.table.windowOpen = none ∨ s.control.station.takesPart = false) :
    atIdle false s = s.setLine s.line.atIdle := by
  rw [atIdle_not_deferred h]
  exact sendStart_of_nothing hn

/-- An idle counts for an interface that waits for one or is IDLE already (log 13). -/
theorem idleReached_of_idle {s : State} (h : s.line.state = .waitIdle ∨ s.line.state = .idle) (d : Bool) :
    idleReached d s = atIdle d s := by
  unfold idleReached
  rcases h with h | h <;> simp [h]

/-- While RECEIVING, SENDING or DETACHED there is no idle (log 28). -/
theorem idleReached_of_busy {s : State}
    (h : s.line.state = .receiving ∨ s.line.state = .sending ∨ s.line.state = .detached) (d : Bool) :
    idleReached d s = s := by
  unfold idleReached
  rcases h with h | h | h <;> simp [h]

/-- Settles O34, by the three cases of an idle (a deferral, nothing to send, an offered entry) and the interface
states in which there is none. -/
theorem idleOffers : Obligations.IdleOffers := by
  unfold Obligations.IdleOffers
  intro s d
  refine ⟨fun hline hwindow => ⟨?deferred, ?quiet, ?offered⟩, fun hbusy => ?busy⟩
  case deferred =>
    rintro rfl
    rw [exec_idle, idleReached_of_idle hline, atIdle_deferred hwindow]
    exact ⟨_, rfl, rfl, rfl, rfl, rfl, rfl, keeps_refresh rfl rfl⟩
  case quiet =>
    rintro rfl hnothing
    rw [exec_idle, idleReached_of_idle hline, atIdle_quiet hwindow hnothing]
    exact ⟨_, rfl, rfl, rfl, rfl, rfl, rfl, keeps_refresh rfl rfl⟩
  case offered =>
    rintro id e rfl hoffer hentry hpart
    rw [exec_idle, idleReached_of_idle hline, atIdle_not_deferred hwindow,
      sendStart_of_offer (s := s.setLine s.line.atIdle) hoffer hentry hpart]
    exact ⟨_, rfl, rfl, rfl, rfl, rfl, rfl, keeps_refresh rfl rfl⟩
  case busy =>
    rw [exec_idle, idleReached_of_busy hbusy]
    exact ⟨_, rfl, rfl, rfl, rfl, rfl, rfl, keeps_refresh rfl rfl⟩

/-! ## A false start and an abandoned frame -/

/-- A false start is one of an idle line, or of a deferral of whose frame nothing was read (R5, log 28). -/
theorem Line.mayBeFalseStart_of {l : Line} (h : l.state = .idle ∨ (l.state = .receiving ∧ l.rx = [])) :
    l.mayBeFalseStart = true := by
  rcases h with h | ⟨h, hrx⟩ <;> simp [Line.mayBeFalseStart, *]

/-- An abandoned frame is an error and then an idle (R20). -/
theorem frameAbandoned_of_receiving {s : State} (h : s.line.state = .receiving ∨ s.line.state = .idle) (d : Bool) :
    frameAbandoned d s = atIdle d (bump .receptionErrors s) := by
  unfold frameAbandoned
  rcases h with h | h <;> simp [h]

/-- Settles O36: a false start counts one error and waits for idle, an abandoned frame counts one error and is an
idle. -/
theorem falseStartsAndAbandonedFrames : Obligations.FalseStartsAndAbandonedFrames := by
  unfold Obligations.FalseStartsAndAbandonedFrames
  intro s
  refine ⟨fun hstart => ?falseStart, fun d hline hwindow hquiet => ?abandoned⟩
  case falseStart =>
    have hstep : falseStarted s = bump .receptionErrors
        (s.setLine { s.line with state := .waitIdle, recessive := 0, phase := 0 }) :=
      if_pos (Line.mayBeFalseStart_of hstart)
    rw [exec_falseStart, hstep]
    exact ⟨_, rfl, rfl, rfl, rfl, rfl, counter_of_bump rfl, keepsCounters_of_bump rfl, rfl, keepsPort_refresh rfl,
      keeps_refresh rfl rfl⟩
  case abandoned =>
    have hwindow' : ¬ ((bump .receptionErrors s).table.windowOpen = true ∧
        (bump .receptionErrors s).table.windowTimer = .runOut) := hwindow
    have hstep : frameAbandoned d s = (bump .receptionErrors s).setLine
        (if d then { s.line with state := .receiving, recessive := 0, phase := 0, rx := [] } else s.line.atIdle) := by
      rw [frameAbandoned_of_receiving hline]
      cases d with
      | true => exact atIdle_deferred hwindow'
      | false => exact atIdle_quiet hwindow' (by simpa using hquiet)
    rw [exec_abandonedFrame, hstep]
    exact ⟨_, rfl, rfl, rfl, rfl, rfl, counter_of_bump rfl, keepsCounters_of_bump rfl, rfl, keepsPort_refresh rfl,
      keeps_refresh rfl rfl⟩

end Sys2Proof.Machine
end

section
/-! SUPPORT. The Outgoing List: reading after writing a slot, and what an outcome that is not an application does to
the entry in flight (R25 to R27, R32 to R35). -/

namespace Sys2Proof.Machine

/-! ## Reading after writing -/

theorem OutList.slot_setSlot_ne (o : OutList) (sl : Slot) {id j : SlotId} (h : j ≠ id) :
    (o.setSlot id sl).slot j = o.slot j := by
  cases id with
  | expire x =>
    cases j with
    | expire y =>
      have hxy : x ≠ y := fun e => h (by rw [e])
      by_cases hx : 1 ≤ x ∧ x ≤ 15
      · by_cases hy : 1 ≤ y ∧ y ≤ 15
        · have hne : x - 1 ≠ y - 1 := by omega
          simp [OutList.slot, OutList.setSlot, hx, hy, hne]
        · simp [OutList.slot, hy]
      · simp [OutList.setSlot, hx]
    | leave | intent | rollcall | standing => by_cases hx : 1 ≤ x ∧ x ≤ 15 <;> simp [OutList.slot, OutList.setSlot, hx]
  | leave | intent | rollcall | standing => cases j <;> first | rfl | exact absurd rfl h

/-- A slot reads as what was stored in it, if it is one of the list's: only such a slot holds an entry. -/
theorem OutList.slot_setSlot_self {o : OutList} {id : SlotId} (h : (o.slot id).entry.isSome = true) (sl : Slot) :
    (o.setSlot id sl).slot id = sl := by
  cases id with
  | expire x =>
    by_cases hx : 1 ≤ x ∧ x ≤ 15
    · simp [OutList.slot, OutList.setSlot, hx]
    · simp [OutList.slot, hx, Slot.empty] at h
  | leave | intent | rollcall | standing => rfl

theorem OutList.slot_setSlot_empty (o : OutList) (id : SlotId) : (o.setSlot id Slot.empty).slot id = Slot.empty := by
  cases id with
  | expire x => by_cases hx : 1 ≤ x ∧ x ≤ 15 <;> simp [OutList.slot, OutList.setSlot, hx]
  | leave | intent | rollcall | standing => rfl

/-- The slots do not depend on what is in flight, on the sequence or on the own-drop count. -/
@[simp] theorem OutList.slot_update (o : OutList) (fl : Option SlotId) (q : Byte) (n : Nat) (id : SlotId) :
    ({ o with flight := fl, seq := q, drops := n } : OutList).slot id = o.slot id := by
  cases id <;> rfl

theorem OutList.setSlot_withFlight (o : OutList) (fl : Option SlotId) (id : SlotId) (sl : Slot) :
    ({ o with flight := fl } : OutList).setSlot id sl = { o.setSlot id sl with flight := fl } := by
  cases id with
  | expire x => by_cases hx : 1 ≤ x ∧ x ≤ 15 <;> simp [OutList.setSlot, hx]
  | leave | intent | rollcall | standing => rfl

@[simp] theorem OutList.setSlot_flight (o : OutList) (id : SlotId) (sl : Slot) :
    (o.setSlot id sl).flight = o.flight := by
  unfold OutList.setSlot; (repeat' split) <;> rfl
@[simp] theorem OutList.setSlot_seq (o : OutList) (id : SlotId) (sl : Slot) : (o.setSlot id sl).seq = o.seq := by
  unfold OutList.setSlot; (repeat' split) <;> rfl
@[simp] theorem OutList.setSlot_drops (o : OutList) (id : SlotId) (sl : Slot) : (o.setSlot id sl).drops = o.drops := by
  unfold OutList.setSlot; (repeat' split) <;> rfl

/-- A list emptied with the own-drop count set to 0 keeps the sequence alone (R35, R36). -/
theorem OutList.emptied_congr {o p : OutList} (hseq : o.seq = p.seq) :
    ({ o.emptied with drops := 0 } : OutList) = { p.emptied with drops := 0 } := by
  simp [OutList.emptied, hseq]

/-! ## Posting -/

/-- A posting of a station that takes part to an empty slot is the pending entry, with both counts 0 (R22, R23). -/
theorem post_of_empty {s : State} {id : SlotId} (c : Content) (hp : s.control.station.takesPart = true)
    (hf : s.out.flight = none) (he : s.out.slot id = Slot.empty) :
    post id c s = s.setOut (s.out.setSlot id ⟨some ⟨c, 0, 0⟩, none⟩) := by
  simp [post, hp, OutList.post, hf, he, Slot.empty, Entry.fresh]

theorem post_of_not_takesPart {s : State} (id : SlotId) (c : Content) (hp : s.control.station.takesPart = false) :
    post id c s = s := by
  simp [post, hp]

/-! ## An outcome that is not an application (R25 to R27, R32, R33) -/

/-- The entry with its failed transmission counted: `cause` 1 is a void frame, 2 a lost arbitration (R32, R33). -/
def Entry.failed (cause : Nat) (e : Entry) : Entry :=
  if cause = 1 then { e with voids := e.voids + 1 } else { e with attempts := e.attempts + 1 }

theorem Entry.failed_content (cause : Nat) (e : Entry) : (e.failed cause).content = e.content := by
  unfold Entry.failed
  split <;> rfl

/-- The entry is over the limit of its cause: the retry limit or the attempt limit (R32, R33). -/
def State.overLimit (s : State) (cause : Nat) (e : Entry) : Prop :=
  if cause = 1 then s.cfg.retryLimit.toNat < e.voids else s.cfg.attemptLimit.toNat < e.attempts

/-- A deferred posting takes the place of the entry that was in flight (R25 to R27). -/
theorem listFailed_of_deferred {s : State} {id : SlotId} {c : Content} (cause : Nat) (hf : s.out.flight = some id)
    (hd : (s.out.slot id).deferred = some c) :
    listFailed cause s = s.setOut { s.out.setSlot id ⟨some ⟨c, 0, 0⟩, none⟩ with flight := none } := by
  simp only [listFailed, hf, State.setOut_out, OutList.slot_update, hd, OutList.setSlot_withFlight]
  rfl

/-- Within the limits the entry is pending again with one more in its count (R32, R33). -/
theorem listFailed_of_within {s : State} {id : SlotId} {e : Entry} {cause : Nat} (hf : s.out.flight = some id)
    (he : s.out.slot id = ⟨some e, none⟩) (hl : ¬ s.overLimit cause (e.failed cause)) :
    listFailed cause s = s.setOut { s.out.setSlot id ⟨some (e.failed cause), none⟩ with flight := none } := by
  unfold State.overLimit Entry.failed at hl
  unfold listFailed Entry.failed
  by_cases hc : cause = 1
  all_goals
    simp only [hc, if_true, if_false] at hl
    simp only [hf, he, hc, hl, if_true, if_false, State.setOut_out, OutList.slot_update, OutList.setSlot_withFlight]
    rfl

/-- The outcome drops the entry in flight: no posting is deferred behind it and it is over the limit of its cause
(R32, R33). -/
structure DropsEntry (s : State) (id : SlotId) (e : Entry) (cause : Nat) : Prop where
  ofCause : cause = 1 ∨ cause = 2
  flight : s.out.flight = some id
  slot : s.out.slot id = ⟨some e, none⟩
  exceeds : s.overLimit cause (e.failed cause)

theorem DropsEntry.listFailed {s : State} {id : SlotId} {e : Entry} {cause : Nat} (h : DropsEntry s id e cause) :
    listFailed cause s = dropEntry id (e.failed cause) cause (s.setOut { s.out with flight := none }) := by
  obtain ⟨hc, hf, he, hl⟩ := h
  unfold State.overLimit Entry.failed at hl
  unfold Machine.listFailed Entry.failed
  rcases hc with rfl | rfl <;> simp_all [OutList.slot_update]

/-! ## A drop (R34, R35) -/

/-- The counter of a drop's cause (R34). -/
def dropCounter (cause : Nat) : Counter := if cause = 1 then .dropsByRetries else .dropsByAttempts

/-- The list without an entry that was dropped: the own-drop count is one higher (R34, R35). -/
def OutList.dropped (o : OutList) (id : SlotId) : OutList :=
  { o.setSlot id Slot.empty with flight := none, drops := o.drops + 1 }

/-- The state in which a drop is reported to the entry's poster: the entry is out of the list, FRAME_DROPPED is
generated and the drop is counted (R34). -/
def State.afterDrop (s : State) (id : SlotId) (e : Entry) (cause : Nat) : State :=
  bump (dropCounter cause) (emit .frameDropped (e.content.dropSubject s.ownId) e.content.kind.code.toNat cause
    e.attempts e.voids (s.setOut (s.out.dropped id)))

@[simp] theorem OutList.dropped_slot (o : OutList) (id : SlotId) : (o.dropped id).slot id = Slot.empty :=
  (OutList.slot_update _ _ _ _ id).trans (o.slot_setSlot_empty id)

/-- A drop: the entry's poster acts on the report, and the third drop in a row is SILENT (R34, R35). -/
theorem dropEntry_eq (s : State) (id : SlotId) (e : Entry) (cause : Nat) :
    dropEntry id e cause (s.setOut { s.out with flight := none }) =
      if s.out.drops = 2 then failed .silent (reportDrop e.content (s.afterDrop id e cause))
      else reportDrop e.content (s.afterDrop id e cause) := by
  have hout : ({ ({ s.out with flight := none } : OutList).setSlot id Slot.empty with
      drops := s.out.drops + 1 } : OutList) = s.out.dropped id := by
    rw [OutList.setSlot_withFlight]
    rfl
  have hdrops : (({ s.out with flight := none } : OutList).setSlot id Slot.empty).drops = s.out.drops := by simp
  unfold dropEntry State.afterDrop
  simp only [bump_out, emit_out, State.setOut_out, hdrops, hout, Nat.reduceEqDiff]
  rfl

/-- The slot that takes an entry of this content (R22). -/
def Content.slotId : Content → SlotId
  | .expire x _ => .expire x
  | .leave => .leave
  | .release | .claim _ => .intent
  | .rollcall _ _ _ => .rollcall
  | .standing => .standing

/-- What the poster of a dropped entry posts again (R34): R126 for an intent, R49 for a STANDING, R48 for an EXPIRE,
R91 for a ROLLCALL. -/
def State.postedAgain (s : State) : Content → Option Content
  | .claim a => if s.control.station = .member then some (.claim a) else none
  | .release => if s.control.station = .member then some .release else none
  | .standing => if s.control.station = .member then some .standing else none
  | .rollcall _ _ _ =>
    if s.control.station = .gathering then
      some (.rollcall s.cfg.powerBudget s.cfg.ventBudget s.cfg.fillBudget)
    else none
  | .leave => none
  | .expire x _ =>
    (s.table.rec? x).bind fun p =>
      if p.lease = .runOut ∧ s.control.station.takesPart = true then some (.expire x p.seq) else none

/-- The list with a content posted again to an empty slot (R22). -/
def OutList.withAgain (o : OutList) (id : SlotId) : Option Content → OutList
  | some c => o.setSlot id ⟨some ⟨c, 0, 0⟩, none⟩
  | none => o

/-- The report of a drop posts again what its poster still wants sent, but for a LEAVE of a LEAVING station (R34). -/
theorem reportDrop_posts {s : State} {c : Content} (hf : s.out.flight = none) (he : s.out.slot c.slotId = Slot.empty)
    (hown : c.slotId ≠ .expire s.ownId) (hleave : ¬ (c = .leave ∧ s.control.station = .leaving)) :
    reportDrop c s = s.setOut (s.out.withAgain c.slotId (s.postedAgain c)) := by
  have posts_if : ∀ (d : Content) (p : Prop) [Decidable p], (p → s.control.station.takesPart = true) →
      reportDrop c s = (if p then post c.slotId d s else s) → s.postedAgain c = (if p then some d else none) →
      reportDrop c s = s.setOut (s.out.withAgain c.slotId (s.postedAgain c)) := by
    intro d p _ hpart hreport hagain
    rw [hreport, hagain]
    split
    case isTrue hp => exact post_of_empty d (hpart hp) hf he
    case isFalse => rfl
  have member : s.control.station = .member → s.control.station.takesPart = true := fun h => by rw [h]; rfl
  have gathering : s.control.station = .gathering → s.control.station.takesPart = true := fun h => by rw [h]; rfl
  have isMember : s.isMember = true ↔ s.control.station = .member := by simp [State.isMember]
  cases c with
  | claim a => exact posts_if (.claim a) _ member (by simp only [reportDrop, postIntent, isMember]; rfl) rfl
  | release => exact posts_if .release _ member (by simp only [reportDrop, postIntent, isMember]; rfl) rfl
  | standing => exact posts_if .standing _ member (by simp only [reportDrop, isMember]; rfl) rfl
  | rollcall p v f => exact posts_if _ _ gathering rfl rfl
  | leave => exact if_neg fun h => hleave ⟨rfl, h⟩
  | expire x q =>
    have hx : x ≠ s.ownId := fun h => hown (by rw [h]; rfl)
    have hempty : (s.out.slot (.expire x)).entry = none := congrArg Slot.entry he
    cases hr : s.table.rec? x with
    | none => simp [reportDrop, State.postedAgain, hr]; rfl
    | some p =>
      refine posts_if (.expire x p.seq) (p.lease = .runOut ∧ s.control.station.takesPart = true) And.right ?_
        (by simp [State.postedAgain, hr])
      have hpost : postExpire x p.seq s = post (.expire x) (.expire x p.seq) s := by simp [postExpire, hempty, hx]
      cases hp : s.control.station.takesPart <;> simp [reportDrop, hr, hpost, post_of_not_takesPart, hp, Content.slotId]

end Sys2Proof.Machine
end

section
/-! SUPPORT. The transitions that a failed transmission can end in, SILENT and the drop of a LEAVE (R35, R91, R99,
R104), and the statement about attempts and drops. -/

namespace Sys2Proof.Machine

/-! ## Station Control's transitions -/

/-- COMMAND_DONE for a join clears the awaited command and is otherwise one event (R93, R99). -/
theorem completeJoin_cases (cause : Cause) (s : State) :
    completeJoin cause s = s ∨ ∃ a, completeJoin cause s = commandDone a cause s := by
  unfold completeJoin
  split
  · exact .inr ⟨_, rfl⟩
  · exact .inr ⟨_, rfl⟩
  · exact .inl rfl
  · exact .inl rfl

theorem rejoinTimerFor_eq (c : Settings) (cause : Cause) :
    rejoinTimerFor c cause = if cause = .deaf ∨ cause = .silent then .running c.leaseTicks else .stopped := by
  cases cause <;> rfl

/-- Entry into ISOLATED has the effects of R99. -/
theorem isolate_entersIsolated (cause : Cause) (s : State) : EntersIsolated cause s (isolate cause s) := by
  rw [isolate_eq]
  rcases completeJoin_cases cause _ with h | ⟨a, h⟩
  all_goals
    rw [h]
    exact ⟨rfl, rfl, rfl, rfl, rfl, rfl, rejoinTimerFor_eq s.cfg cause, rfl, rfl, rfl, rfl, rfl, rfl, rfl⟩

/-- The effects of entry into ISOLATED do not depend on what the list's slots, the ring or the counters held (R36). -/
theorem EntersIsolated.congr {cause : Cause} {s u t : State} (h : EntersIsolated cause u t)
    (hcontrol : u.control = s.control) (hcfg : u.cfg = s.cfg) (htable : u.table = s.table)
    (hengine : u.engine = s.engine) (hmeas : u.meas = s.meas) (hfault : u.fault = s.fault) (hpending : u.pending = s.pending)
    (hseq : u.out.seq = s.out.seq) : EntersIsolated cause s t := by
  unfold EntersIsolated State.ownId OutList.emptied at h ⊢
  rwa [hcontrol, hcfg, htable, hengine, hmeas, hfault, hpending, hseq] at h

/-- Entry into OFFLINE is the same with a LEAVE STATION awaited, but for COMMAND_DONE (R104). -/
theorem goOffline_cases (cause : Cause) (s : State) :
    goOffline cause s = s.offlined cause ∨ goOffline cause s = commandDone .leaveStation cause (s.offlined cause) := by
  rw [goOffline_eq]
  split
  · exact .inr rfl
  · exact .inl rfl

/-- SILENT or DEAF isolates a GATHERING or MEMBER station (R98). -/
theorem failed_of_joined {s : State} (cause : Cause)
    (h : s.control.station = .gathering ∨ s.control.station = .member) :
    failed cause s = isolate cause s := by
  unfold failed
  rcases h with h | h <;> simp [h]

/-- SILENT or DEAF takes a LEAVING station to OFFLINE (R98). -/
theorem failed_of_leaving {s : State} (cause : Cause) (h : s.control.station = .leaving) :
    failed cause s = goOffline cause s := by
  simp [failed, h]

theorem failed_of_offline {s : State} (cause : Cause) (h : s.control.station = .offline) : failed cause s = s := by
  simp [failed, h]

/-! ## What the outcome of a transmission leaves -/

/-- No count is made, the Fault Record stays, and the interface stays or is detached. -/
structure KeepsOrDetaches (s t : State) : Prop where
  counters : t.port.counters = s.port.counters
  fault : t.fault = s.fault
  line : t.line.state = s.line.state ∨ t.line.state = .detached

theorem KeepsOrDetaches.refl (s : State) : KeepsOrDetaches s s := ⟨rfl, rfl, .inl rfl⟩

theorem KeepsOrDetaches.trans {s t u : State} (h : KeepsOrDetaches s t) (g : KeepsOrDetaches t u) :
    KeepsOrDetaches s u :=
  ⟨g.counters.trans h.counters, g.fault.trans h.fault, by
    rcases g.line with e | e
    · rw [e]; exact h.line
    · exact .inr e⟩

theorem isolate_keeps (cause : Cause) (s : State) : KeepsOrDetaches s (isolate cause s) := by
  rw [isolate_eq]
  rcases completeJoin_cases cause _ with h | ⟨a, h⟩ <;> rw [h] <;> exact ⟨rfl, rfl, .inl rfl⟩

theorem goOffline_keeps (cause : Cause) (s : State) : KeepsOrDetaches s (goOffline cause s) := by
  rcases goOffline_cases cause s with h | h <;> rw [h] <;> exact ⟨rfl, rfl, .inr rfl⟩

theorem failed_keeps (cause : Cause) (s : State) : KeepsOrDetaches s (failed cause s) := by
  unfold failed
  split
  · exact isolate_keeps _ _
  · exact isolate_keeps _ _
  · exact goOffline_keeps _ _
  · exact .refl s
  · exact .refl s

theorem post_keeps (id : SlotId) (c : Content) (s : State) : KeepsOrDetaches s (post id c s) := by
  unfold post
  split <;> exact ⟨rfl, rfl, .inl rfl⟩

theorem postIntent_keeps (c : Content) (s : State) : KeepsOrDetaches s (postIntent c s) := by
  unfold postIntent
  split
  · exact post_keeps _ _ _
  · exact .refl s

theorem postExpire_keeps (target : Nat) (q : Byte) (s : State) : KeepsOrDetaches s (postExpire target q s) := by
  unfold postExpire
  split
  · exact .refl s
  · exact post_keeps _ _ _

theorem reportDrop_keeps (c : Content) (s : State) : KeepsOrDetaches s (reportDrop c s) := by
  unfold reportDrop
  split
  case h_1 | h_2 => exact postIntent_keeps _ _
  case h_3 => split <;> [exact post_keeps _ _ _; exact .refl s]
  case h_4 =>
    split
    · split <;> [exact postExpire_keeps _ _ _; exact .refl s]
    · exact .refl s
  case h_5 => split <;> [exact post_keeps _ _ _; exact .refl s]
  case h_6 => split <;> [exact goOffline_keeps _ _; exact .refl s]

/-- A drop makes its one count and leaves the rest to the report (R34, R35). -/
theorem listFailed_of_drop_keeps {s : State} {id : SlotId} {e : Entry} {cause : Nat} (h : DropsEntry s id e cause) :
    KeepsOrDetaches (s.afterDrop id (e.failed cause) cause) (listFailed cause s) := by
  rw [h.listFailed, dropEntry_eq]
  have hreport := reportDrop_keeps (e.failed cause).content (s.afterDrop id (e.failed cause) cause)
  split
  · exact hreport.trans (failed_keeps _ _)
  · exact hreport

/-- A failed transmission leaves the interface where it is or, with a station that goes OFFLINE, detaches it. -/
theorem listFailed_lineState {s : State} {cause : Nat} (hc : cause = 1 ∨ cause = 2) :
    (listFailed cause s).line.state = s.line.state ∨ (listFailed cause s).line.state = .detached := by
  cases hf : s.out.flight with
  | none => exact .inl (by simp [listFailed, hf])
  | some id =>
    cases hd : (s.out.slot id).deferred with
    | some c => rw [listFailed_of_deferred cause hf hd]; exact .inl rfl
    | none =>
      cases he : (s.out.slot id).entry with
      | none => exact .inl (by simp [listFailed, hf, hd, he])
      | some e =>
        have hslot : s.out.slot id = ⟨some e, none⟩ := by rw [← he, ← hd]
        by_cases hl : s.overLimit cause (e.failed cause)
        · exact (listFailed_of_drop_keeps ⟨hc, hf, hslot, hl⟩).line
        · rw [listFailed_of_within hf hslot hl]; exact .inl rfl

/-! ## Attempts and drops -/

/-- Nothing but the list changes while a drop is posted again and is not the third in a row (R34, R35). -/
theorem listFailed_of_drop {s : State} {id : SlotId} {e : Entry} {cause : Nat} (h : DropsEntry s id e cause)
    (hid : e.content.slotId = id) (hown : id ≠ .expire s.ownId)
    (hleave : ¬ (e.content = .leave ∧ s.control.station = .leaving)) :
    listFailed cause s =
      let t := (s.afterDrop id (e.failed cause) cause).setOut
        ((s.out.dropped id).withAgain id (s.postedAgain e.content))
      if s.out.drops = 2 then failed .silent t else t := by
  subst hid
  rw [h.listFailed, dropEntry_eq, Entry.failed_content,
    reportDrop_posts (s := s.afterDrop e.content.slotId (e.failed cause) cause) rfl
      (OutList.dropped_slot _ _) hown hleave]
  rfl

theorem exec_arbitrationLost (bit : Nat) (s : State) :
    exec (.arbitrationLost bit) s = .next (refresh (arbitrationLostAt bit s)) := rfl

/-- The interface after a lost arbitration receives the winner's frame (R9). -/
def Line.lost (l : Line) (kept : List Bool) : Line :=
  { l with state := .receiving, recessive := 0, phase := 0, tx := none, rx := kept }

/-- A 1 sent and a 0 read loses the arbitration (R9). -/
theorem arbitrationLostAt_of_one {s : State} {f : Frame} {bit : Nat}
    (hline : s.line.state = .sending) (htx : s.line.tx = some f) (hbit : f.dataBits[bit]? = some true) :
    arbitrationLostAt bit s =
      listFailed 2 (bump .arbitrationLosses (s.setLine (s.line.lost (f.dataBits.take bit ++ [false])))) := by
  simp only [arbitrationLostAt, hline, htx, hbit, if_true]
  rfl

/-- The slot after a lost arbitration that drops nothing: the deferred posting, or the entry with one attempt more
(R25, R33). -/
def Entry.slotAfterLoss (e : Entry) : Option Content → Slot
  | none => ⟨some { e with attempts := e.attempts + 1 }, none⟩
  | some c => ⟨some ⟨c, 0, 0⟩, none⟩

/-- A lost arbitration within the attempt limit, or with a posting deferred, leaves the slot pending again (R25, R33).
-/
theorem listFailed_lost_of_slot {s : State} {id : SlotId} {e : Entry} {d : Option Content} (hf : s.out.flight = some id)
    (hslot : s.out.slot id = ⟨some e, d⟩) (hlimit : d = none → e.attempts < s.cfg.attemptLimit.toNat) :
    listFailed 2 s = s.setOut { s.out.setSlot id (e.slotAfterLoss d) with flight := none } := by
  cases d with
  | none =>
    have hwithin : ¬ s.overLimit 2 (e.failed 2) := Nat.not_lt.mpr (Nat.succ_le_of_lt (hlimit rfl))
    exact listFailed_of_within hf hslot hwithin
  | some c => exact listFailed_of_deferred 2 hf (by rw [hslot])

/-- Settles O37: the lost arbitration from the two outcomes that leave the slot pending, the drop from the equation of
a drop whose STANDING is posted again. -/
theorem attemptsAndDrops : Obligations.AttemptsAndDrops := by
  unfold Obligations.AttemptsAndDrops
  refine ⟨?lost, ?dropped⟩
  case lost =>
    intro s bit f id e d hline htx hbit hf hslot hlimit
    have hlist := listFailed_lost_of_slot
      (s := bump .arbitrationLosses (s.setLine (s.line.lost (f.dataBits.take bit ++ [false])))) hf hslot hlimit
    have hself : (s.out.setSlot id (e.slotAfterLoss d)).slot id = e.slotAfterLoss d :=
      OutList.slot_setSlot_self (by rw [hslot]; rfl) _
    rw [exec_arbitrationLost, arbitrationLostAt_of_one hline htx hbit, hlist]
    refine ⟨_, rfl, rfl, ?_, fun j hj => ?_, rfl, s.out.setSlot_seq id _, s.out.setSlot_drops id _, rfl, rfl,
      counter_of_bump rfl, keepsCounters_of_bump rfl, rfl, keepsPort_refresh rfl, keeps_refresh rfl rfl⟩
    · exact (OutList.slot_update _ _ _ _ id).trans (hself.trans (by cases d <;> rfl))
    · exact (OutList.slot_update _ _ _ _ j).trans (s.out.slot_setSlot_ne _ hj)
  case dropped =>
    intro s e hmember hf hslot hcontent hvoids hdrops t
    have hover : s.overLimit 1 (e.failed 1) := by
      show s.cfg.retryLimit.toNat < e.voids + 1
      omega
    have ht : t = (s.afterDrop .standing (e.failed 1) 1).setOut
        ((s.out.dropped .standing).withAgain .standing (some .standing)) := by
      have hagain : s.postedAgain e.content = some .standing := by rw [hcontent]; exact if_pos hmember
      have h := listFailed_of_drop ⟨.inl rfl, hf, hslot, hover⟩ (by rw [hcontent]; rfl) (by simp) (by simp [hcontent])
      rw [hagain] at h
      exact h.trans (if_neg (by omega))
    have hkind : (e.failed 1).content = .standing := hcontent
    have hring : (s.afterDrop .standing (e.failed 1) 1).port.ring =
        s.port.ring.after .frameDropped s.ownId 6 1 e.attempts (e.voids + 1) := by
      unfold State.afterDrop
      rw [hkind]
      rfl
    rw [ht]
    exact ⟨rfl, hring, counter_of_bump rfl, keepsCounters_of_bump rfl, rfl, rfl, rfl, rfl⟩

end Sys2Proof.Machine
end

section
/-! SUPPORT. The end of a frame (sections 1.5 to 1.13): how a sender fares, and what the end of an own and of a heard
frame is in each case of its findings. -/

namespace Sys2Proof.Machine

/-! ## How a sender fares (R9, R10) -/

/-- Everything read back as sent keeps the line (R9). -/
theorem Reading.fares_kept {kind : BitVec 4} {r : Reading} {f : Frame} (hs : r.startFault = false)
    (hm : r.markFaultAt = none) (hbits : r.dataBits kind = f.dataBits) : r.fares kind f = .kept := by
  simp only [Reading.fares, hs, hm, hbits, Bool.false_eq_true, if_false]
  exact contest_kept _ _ (by simp)

/-- A reading that is the frame's own, but for the objection slot. -/
def Reading.OwnBits (r : Reading) (f : Frame) : Prop :=
  r = { Reading.clean f.kind.code f.sender f.seq f.payload with
    slot1Fault := r.slot1Fault, slot1Dominant := r.slot1Dominant, slot2Fault := r.slot2Fault }

theorem Reading.OwnBits.fares {r : Reading} {f : Frame} (h : r.OwnBits f) : r.fares f.kind.code f = .kept := by
  rw [h]
  exact Reading.fares_kept rfl rfl rfl

theorem ReadsBack.ownBits {f : Frame} {r : Reading} {s : State} (h : ReadsBack f r s) : r.OwnBits f := by
  obtain ⟨-, -, hr, -⟩ := h
  unfold Reading.OwnBits
  rw [hr]

theorem ReadsBack.takesPart {f : Frame} {r : Reading} {s : State} (h : ReadsBack f r s) :
    s.control.station.takesPart = true := by
  obtain ⟨-, -, -, hp⟩ := h
  exact hp

/-- The objection slot of a frame read back without a finding brings none (R14). -/
theorem ReadsBack.slots {f : Frame} {r : Reading} {s : State} (h : ReadsBack f r s) :
    r.slot1Fault = false ∧ r.slot2Fault = false := by
  obtain ⟨-, -, hr, -⟩ := h
  exact ⟨by rw [hr]; rfl, by rw [hr]; rfl⟩

/-- A 1 read as 0 before any other difference loses the arbitration (R9). -/
theorem Reading.fares_lost {kind : BitVec 4} {r : Reading} {f : Frame} {n : Nat} (hs : r.startFault = false)
    (heq : f.dataBits.take n = (r.dataBits kind).take n) (hm : ∀ k, r.markFaultAt = some k → n < k)
    (hsent : f.dataBits[n]? = some true) (hgot : (r.dataBits kind)[n]? = some false) : r.fares kind f = .lost := by
  unfold Reading.fares
  simp only [hs, Bool.false_eq_true, if_false]
  split
  case h_1 => exact contest_lost n _ _ heq hsent hgot
  case h_2 k hk =>
    have hlt : n < k := hm k hk
    rw [contest_lost n (f.dataBits.take k) _ (by rw [List.take_take, min_eq_left hlt.le, heq])
      (by rw [List.getElem?_take_of_lt hlt, hsent]) hgot]

/-- A missing mark of its own, or a 0 read as 1, before any other difference is a drive fault (R10). -/
theorem Reading.fares_driveFault {kind : BitVec 4} {r : Reading} {f : Frame} {n : Nat} (hn : n < 80)
    (heq : f.dataBits.take n = (r.dataBits kind).take n)
    (h : r.markFaultAt = some n ∨ ((∀ k, r.markFaultAt = some k → n < k) ∧ f.dataBits[n]? = some false ∧
      (r.dataBits kind)[n]? = some true)) : r.fares kind f = .driveFault := by
  unfold Reading.fares
  split
  case isTrue => rfl
  case isFalse =>
    rcases h with hm | ⟨hm, hsent, hgot⟩
    · have hlength : (f.dataBits.take n).length = n := by rw [List.length_take, f.dataBits_length]; omega
      simp only [hm, contest_kept (f.dataBits.take n) (r.dataBits kind) (by rw [hlength, heq])]
    · split
      case h_1 => exact contest_driveFault n _ _ heq hsent hgot
      case h_2 k hk =>
        have hlt : n < k := hm k hk
        rw [contest_driveFault n (f.dataBits.take k) _ (by rw [List.take_take, min_eq_left hlt.le, heq])
          (by rw [List.getElem?_take_of_lt hlt, hsent]) hgot]

/-! ## Which end a frame row is -/

/-- The frame rows, each with the kind of its frame. -/
def frameRows (kind : BitVec 4) (r : Reading) : List (BitVec 4 × Instr) :=
  [(1, .expire r), (2, .leave r), (3, .release r), (4, .claim r), (5, .rollcall r), (6, .standing r),
    (kind, .undefinedKindFrame kind r), (kind, .voidFrame kind r)]

theorem frameEnd_of_kept {kind : BitVec 4} {r : Reading} {f : Frame} {s : State} (void : Bool)
    (hline : s.line.state = .sending) (htx : s.line.tx = some f) (h : r.fares kind f = .kept) :
    frameEnd kind r void s = ownEnd f r false void s := by
  simp [frameEnd, hline, htx, h]

theorem frameEnd_of_driveFault {kind : BitVec 4} {r : Reading} {f : Frame} {s : State} (void : Bool)
    (hline : s.line.state = .sending) (htx : s.line.tx = some f) (h : r.fares kind f = .driveFault) :
    frameEnd kind r void s = ownEnd f r true void s := by
  simp [frameEnd, hline, htx, h]

theorem frameEnd_of_heard {s : State} (h : s.line.state = .idle ∨ s.line.state = .receiving) (kind : BitVec 4)
    (r : Reading) (void : Bool) : frameEnd kind r void s = heardEnd kind r void s := by
  unfold frameEnd
  rcases h with h | h <;> simp [h]

theorem frameEnd_of_detached {s : State} (h : s.line.state = .detached) (kind : BitVec 4) (r : Reading) (void : Bool) :
    frameEnd kind r void s = s := by
  simp [frameEnd, h]

theorem frameEnd_of_waitIdle {s : State} (h : s.line.state = .waitIdle) (kind : BitVec 4) (r : Reading) (void : Bool) :
    frameEnd kind r void s = s.setLine { s.line with recessive := 0 } := by
  simp [frameEnd, h]

/-- Where the row shows a lost arbitration, the rest of it is that of a receiver of the winner's frame (log 12): the
interface is RECEIVING after the loss, or detached with a station that the loss took to OFFLINE. -/
theorem frameEnd_of_lost {kind : BitVec 4} {r : Reading} {f : Frame} {s : State} (void : Bool)
    (hline : s.line.state = .sending) (htx : s.line.tx = some f) (h : r.fares kind f = .lost) :
    frameEnd kind r void s = frameEnd kind r void (loseArbitration [] s) := by
  have hlost : frameEnd kind r void s = if (loseArbitration [] s).line.state = .receiving then
      heardEnd kind r void (loseArbitration [] s) else loseArbitration [] s := by
    simp [frameEnd, hline, htx, h]
  have hstate : (loseArbitration [] s).line.state = .receiving ∨ (loseArbitration [] s).line.state = .detached :=
    listFailed_lineState (.inr rfl)
  rw [hlost]
  rcases hstate with hr | hd
  · rw [if_pos hr, frameEnd_of_heard (.inr hr)]
  · rw [if_neg (by simp [hd]), frameEnd_of_detached hd]

/-! ## The objection slot (R12, R13) -/

/-- An echo is no objection (R13). -/
theorem echo_isObjection (b : Bool) : (if b then SlotAct.echoed else SlotAct.none).isObjection = false := by
  cases b <;> rfl

/-- A station objects for a finding before the slot or for a mark missing in its first bit (R12). -/
theorem finding_of_objection {part before slot1Fault slot1Dominant : Bool}
    (h : (slotDecision part before slot1Fault slot1Dominant).isObjection = true) :
    before = true ∨ slot1Fault = true := by
  cases before with
  | true => exact .inl rfl
  | false =>
    cases slot1Fault with
    | true => exact .inr rfl
    | false => cases part <;> cases slot1Dominant <;> exact absurd h (by decide)

/-- Without a finding before the slot or in its first bit, a sender echoes a dominant first bit (R13). -/
theorem slotDecision_of_sender {r : Reading} (h1 : r.slot1Fault = false) :
    slotDecision true false r.slot1Fault r.slot1Dominant = if r.slot1Dominant then .echoed else .none := by
  rw [h1]
  rfl

/-! ## The end of an own frame (R10, R12, R14) -/

/-- An objection that leaves the run below 16 is one count and one more in the run (R12, R97). -/
theorem countObjection_of_short {s : State} (hp : s.control.station.takesPart = true) (hrun : s.control.run < 15) :
    countObjection s = (bump .objections s).setControl { s.control with run := s.control.run + 1 } := by
  have hshort : ¬ 16 ≤ s.control.run + 1 := by omega
  simp [countObjection, reportObjection, hp, hshort]

/-- A sender that objects has a finding, and its outcome is void whatever the second objection bit reads (R10,
R14). -/
theorem ownEnd_of_objection {f : Frame} {r : Reading} {s : State} {driveFault : Bool} (void : Bool) {d : SlotAct}
    (hp : s.control.station.takesPart = true) (hrun : s.control.run < 15)
    (hd : slotDecision true driveFault r.slot1Fault r.slot1Dominant = d) (hobj : d.isObjection = true) :
    ownEnd f r driveFault void s = listFailed 1 (bump .ownVoided ((bump .objections
      (s.setLine (s.line.frameEnded d))).setControl { s.control with run := s.control.run + 1 })) := by
  have hfinding : ownFinding driveFault r = true := by
    rcases finding_of_objection (hd ▸ hobj) with h | h <;> simp [ownFinding, h]
  have hlong : ¬ 15 ≤ s.control.run := by omega
  have hcount := countObjection_of_short (s := s.setLine (s.line.frameEnded d)) hp hrun
  simp only [ownEnd, hp, hd, hobj, hfinding, hlong, hcount, if_true, if_false]
  simp [ownOutcomeReport, Line.frameEnded]

/-- A void frame without an own objection is one own frame voided (R14, R32). -/
theorem ownEnd_of_void {f : Frame} {r : Reading} {s : State} {void : Bool} (hp : s.control.station.takesPart = true)
    (h1 : r.slot1Fault = false) (hv : void = true ∨ r.slot2Fault = true) :
    ownEnd f r false void s = listFailed 1 (bump .ownVoided
      (s.setLine (s.line.frameEnded (if r.slot1Dominant then .echoed else .none)))) := by
  have happlied : (!void && !ownFinding false r) = false := by
    rcases hv with hv | hv <;> simp [ownFinding, hv]
  simp only [ownEnd, hp, slotDecision_of_sender h1, echo_isObjection, happlied, Bool.false_eq_true, if_false]
  simp [ownOutcomeReport, Line.frameEnded]

/-- An own frame without a finding that does not end void is applied: the list advances and the frame is delivered
(R14, R31). -/
theorem ownEnd_of_applied {f : Frame} {r : Reading} {s : State} (hp : s.control.station.takesPart = true)
    (h1 : r.slot1Fault = false) (h2 : r.slot2Fault = false) :
    ownEnd f r false false s = deliver true f (listApplied (bump .ownApplied
      (s.setLine (s.line.frameEnded (if r.slot1Dominant then .echoed else .none))))) := by
  have happlied : (!false && !ownFinding false r) = true := by simp [ownFinding, h1, h2]
  simp only [ownEnd, hp, slotDecision_of_sender h1, echo_isObjection, happlied, Bool.false_eq_true, if_false]
  simp [ownOutcomeReport, Line.frameEnded]

end Sys2Proof.Machine
end

section
/-! SUPPORT. The statement about own frames that fail, in two halves: what the rows make of them and what the list
does. -/

namespace Sys2Proof.Machine

/-! ## The rows -/

/-- The rows an own frame can end in, each with its kind. -/
def ownRows (kind : BitVec 4) (r : Reading) : List (BitVec 4 × Instr) :=
  [(1, .expire r), (2, .leave r), (3, .release r), (4, .claim r), (5, .rollcall r), (6, .standing r),
    (kind, .voidFrame kind r)]

/-- A row that shows a lost arbitration does what it does after the loss (R9, log 12). -/
theorem exec_frameRow_of_lost {kind : BitVec 4} {r : Reading} {row : Instr} {f : Frame} {s : State} {n : Nat}
    (hrow : (kind, row) ∈ frameRows kind r) (hline : s.line.state = .sending) (htx : s.line.tx = some f)
    (hs : r.startFault = false)
    (heq : f.dataBits.take n = (r.dataBits kind).take n) (hm : ∀ k, r.markFaultAt = some k → n < k)
    (hsent : f.dataBits[n]? = some true) (hgot : (r.dataBits kind)[n]? = some false) :
    exec row s = exec row (loseArbitration [] s) := by
  obtain ⟨void, hexec⟩ := exec_frameRow hrow
  rw [hexec, hexec, frameEnd_of_lost void hline htx (Reading.fares_lost hs heq hm hsent hgot)]

/-- A drive fault makes the station object in the first bit and the own frame void (R10, R12). -/
theorem exec_frameRow_of_driveFault {kind : BitVec 4} {r : Reading} {row : Instr} {f : Frame} {s : State}
    (hrow : (kind, row) ∈ frameRows kind r) (hline : s.line.state = .sending) (htx : s.line.tx = some f)
    (hp : s.control.station.takesPart = true)
    (hrun : s.control.run < 15) (hfares : r.fares kind f = .driveFault) :
    exec row s = .next (refresh (listFailed 1 (bump .ownVoided ((bump .objections
      (s.setLine (s.line.frameEnded .objected))).setControl { s.control with run := s.control.run + 1 })))) := by
  obtain ⟨void, hexec⟩ := exec_frameRow hrow
  rw [hexec, frameEnd_of_driveFault void hline htx hfares, ownEnd_of_objection void hp hrun rfl rfl]
  rfl

/-- An own frame's rows are among the frame rows. -/
theorem mem_frameRows {kind : BitVec 4} {r : Reading} {row : Instr} (h : (kind, row) ∈ ownRows kind r) :
    (kind, row) ∈ frameRows kind r := by
  simp only [ownRows, frameRows, List.mem_cons, List.not_mem_nil, or_false] at h ⊢
  tauto

/-- The two ways in which a finding in the objection slot makes an own frame void (R12, R14). -/
theorem exec_frameRow_of_slotFinding {r : Reading} {row : Instr} {f : Frame} {s : State}
    (hrow : (f.kind.code, row) ∈ ownRows f.kind.code r)
    (hline : s.line.state = .sending) (htx : s.line.tx = some f) (hp : s.control.station.takesPart = true)
    (hown : r.OwnBits f) :
    (r.slot1Fault = true → s.control.run < 15 →
      exec row s = .next (refresh (listFailed 1 (bump .ownVoided ((bump .objections
      (s.setLine (s.line.frameEnded .objectedSecond))).setControl { s.control with run := s.control.run + 1 }))))) ∧
    (r.slot1Fault = false → r.slot2Fault = true → exec row s = .next (refresh (listFailed 1 (bump .ownVoided
      (s.setLine (s.line.frameEnded (if r.slot1Dominant then .echoed else .none))))))) := by
  obtain ⟨void, hexec⟩ := exec_frameRow (mem_frameRows hrow)
  rw [hexec, frameEnd_of_kept void hline htx hown.fares]
  refine ⟨fun h1 hrun => ?_, fun h1 h2 => ?_⟩
  · rw [ownEnd_of_objection void hp hrun (d := .objectedSecond) (by rw [h1]; rfl) rfl]
  · rw [ownEnd_of_void hp h1 (.inr h2)]

/-! ## The list -/

/-- A drop of a LEAVING station's LEAVE takes it to OFFLINE with cause LEAVE_DROPPED, the third drop in a row or not
(R91). -/
theorem listFailed_of_leave {s : State} {e : Entry} {cause : Nat} (h : DropsEntry s .leave e cause)
    (hcontent : e.content = .leave) (hs : s.control.station = .leaving) :
    listFailed cause s = goOffline .leaveDropped (s.afterDrop .leave (e.failed cause) cause) := by
  have hreport : reportDrop (e.failed cause).content (s.afterDrop .leave (e.failed cause) cause) =
      goOffline .leaveDropped (s.afterDrop .leave (e.failed cause) cause) := by
    rw [e.failed_content, hcontent]
    exact if_pos hs
  have hoffline : (goOffline .leaveDropped (s.afterDrop .leave (e.failed cause) cause)).control.station = .offline := by
    rcases goOffline_cases .leaveDropped (s.afterDrop .leave (e.failed cause) cause) with h | h <;> rw [h] <;> rfl
  rw [h.listFailed, dropEntry_eq, hreport, failed_of_offline _ hoffline, ite_self]

/-- The ring of a station whose own record holds no share as it leaves the line (R85, R106). -/
theorem State.ringMoved_of_none {s : State} (h : s.own = .none) (after : StationState) (cause : Cause) (q : Nat) :
    s.ringMoved after cause q =
      s.port.ring.after .stationState s.ownId s.control.station.code after.code cause.code q := by
  simp [State.ringMoved, h]

@[simp] theorem OutList.withAgain_seq (o : OutList) (id : SlotId) (c : Option Content) :
    (o.withAgain id c).seq = o.seq := by
  cases c <;> simp [OutList.withAgain]

@[simp] theorem OutList.dropped_seq (o : OutList) (id : SlotId) : (o.dropped id).seq = o.seq :=
    o.setSlot_seq id Slot.empty

/-- FRAME_DROPPED names the target of an EXPIRE and the own id for every other kind (R34). -/
theorem afterDrop_ring (s : State) (id : SlotId) (e : Entry) (cause : Nat) :
    (s.afterDrop id (e.failed cause) cause).port.ring = s.port.ring.after .frameDropped (e.content.dropSubject s.ownId)
      e.content.kind.code.toNat cause (e.failed cause).attempts (e.failed cause).voids := by
  unfold State.afterDrop
  rw [e.failed_content]
  rfl

/-- A LEAVE STATION that was awaited is completed by the drop of the LEAVE; a station without a share loses none
(R104, R106). -/
theorem listFailed_of_awaited_leave {s : State} {e : Entry} {cause : Nat} (h : DropsEntry s .leave e cause)
    (hcontent : e.content = .leave) (hs : s.control.station = .leaving) (hnone : s.own = .none)
    (hawaited : s.control.awaited = some .leaveStation) :
    let t := listFailed cause s
    t.control = ⟨.offline, none, 0, 0, .stopped, .stopped, false, none⟩ ∧ t.line.state = .detached ∧
      t.out = { s.out.emptied with drops := 0 } ∧ t.table = s.table.clearAll ∧
      t.port.ring = ((s.afterDrop .leave (e.failed cause) cause).port.ring.after .stationState s.ownId 3 0 16 0).after
        .commandDone s.ownId 2 0 16 0 := by
  have hmoved : (s.afterDrop .leave (e.failed cause) cause).ringMoved .offline .leaveDropped 0 =
      (s.afterDrop .leave (e.failed cause) cause).port.ring.after .stationState s.ownId 3 0 16 0 := by
    rw [State.ringMoved_of_none (s := s.afterDrop .leave (e.failed cause) cause) hnone]
    exact congrArg (fun st : StationState => Ring.after _ .stationState s.ownId st.code 0 16 0) hs
  rw [(listFailed_of_leave h hcontent hs).trans ((goOffline_eq _ _).trans (if_pos hawaited))]
  exact ⟨rfl, rfl, rfl, rfl, congrArg (fun x : Ring => x.after .commandDone s.ownId 2 0 16 0) hmoved⟩

/-- The third drop in a row isolates a GATHERING or MEMBER station with cause SILENT (R35, R99). -/
theorem listFailed_isolates {s : State} {id : SlotId} {e : Entry} {cause : Nat} (h : DropsEntry s id e cause)
    (hid : e.content.slotId = id) (hown : id ≠ .expire s.ownId) (hdrops : s.out.drops = 2)
    (hs : s.control.station = .gathering ∨ s.control.station = .member) :
    EntersIsolated .silent s (listFailed cause s) := by
  have hleave : ¬ (e.content = .leave ∧ s.control.station = .leaving) := by
    rintro ⟨-, h⟩
    rcases hs with g | g <;> simp [g] at h
  have ht := ((listFailed_of_drop h hid hown hleave).trans (if_pos hdrops)).trans (failed_of_joined _ hs)
  rw [ht]
  exact (isolate_entersIsolated .silent _).congr rfl rfl rfl rfl rfl rfl rfl (by simp)

/-- The third drop in a row takes a LEAVING station to OFFLINE (R35, R104). -/
theorem listFailed_takesOffline {s : State} {id : SlotId} {e : Entry} {cause : Nat} (h : DropsEntry s id e cause)
    (hid : e.content.slotId = id) (hown : id ≠ .expire s.ownId) (hdrops : s.out.drops = 2)
    (hs : s.control.station = .leaving) (hcontent : e.content ≠ .leave) :
    (listFailed cause s).control.station = .offline ∧ (listFailed cause s).line.state = .detached ∧
      (listFailed cause s).out = { s.out.emptied with drops := 0 } ∧ (listFailed cause s).table = s.table.clearAll := by
  have ht := ((listFailed_of_drop h hid hown (fun h => hcontent h.1)).trans (if_pos hdrops)).trans
    (failed_of_leaving _ hs)
  have hout := OutList.emptied_congr (o := (s.out.dropped id).withAgain id (s.postedAgain e.content))
    (p := s.out) (by simp)
  rw [ht]
  rcases goOffline_cases .silent _ with h | h
  all_goals
    rw [h]
    exact ⟨rfl, rfl, hout, rfl⟩

/-- Settles O38: the rows from the ends of an own frame, the list from the equations of a failed outcome. -/
theorem ownFailures : Obligations.OwnFailures := by
  unfold Obligations.OwnFailures
  refine ⟨fun s f r bit hline htx => ⟨?void, fun kind row hrow => ⟨?lost, ?drive⟩, ?slot, ?arbitration⟩, ?list⟩
  case void =>
    intro h
    obtain ⟨h1, -⟩ := h.slots
    have hexec : exec (.voidFrame f.kind.code r) s = .next (refresh (frameEnd f.kind.code r true s)) := rfl
    rw [hexec, frameEnd_of_kept true hline htx h.ownBits.fares, ownEnd_of_void h.takesPart h1 (.inl rfl)]
  case lost =>
    rintro hs ⟨n, -, heq, hm, hsent, hgot⟩
    exact exec_frameRow_of_lost hrow hline htx hs heq hm hsent hgot
  case drive =>
    rintro hp hrun (hs | ⟨n, hn, heq, h⟩)
    · exact exec_frameRow_of_driveFault hrow hline htx hp hrun (Reading.fares_startFault hs f)
    · exact exec_frameRow_of_driveFault hrow hline htx hp hrun (Reading.fares_driveFault hn heq h)
  case slot =>
    intro row hrow hp hown
    exact exec_frameRow_of_slotFinding hrow hline htx hp hown
  case arbitration =>
    intro hbit
    rw [exec_arbitrationLost, arbitrationLostAt_of_one hline htx hbit]
    rfl
  case list =>
    intro s id e cause hf hc e1 exceeded
    refine ⟨?deferred, ?within, ?drop⟩
    case deferred => exact fun c hd => listFailed_of_deferred cause hf hd
    case within => exact fun he hl => listFailed_of_within hf he hl
    case drop =>
      intro he hl hid hown t dropped again counted ring
      have h : DropsEntry s id e cause := ⟨hc, hf, he, hl⟩
      have hslot : e.content.slotId = id := by rw [hid]; cases e.content <;> rfl
      have hkeeps : KeepsOrDetaches (s.afterDrop id (e.failed cause) cause) t := listFailed_of_drop_keeps h
      have houtside : t.outside = s.outside := listFailed_outside cause s
      have hring : (s.afterDrop id (e.failed cause) cause).port.ring = ring := by
        rw [afterDrop_ring]
        simp only [ring]
        cases e.content <;> rfl
      refine ⟨counter_of_bump hkeeps.counters, keepsCounters_of_bump hkeeps.counters, keepsBase_of_outside houtside,
        keepsPort_of_outside houtside, outside_meas houtside, hkeeps.fault, ?reposted, ?leaveDropped,
        ?silent, ?silentLeaving⟩
      case reposted =>
        intro hdrops hleave
        have ht : t = _ := (listFailed_of_drop h hslot hown hleave).trans (if_neg hdrops)
        rw [ht]
        refine ⟨hring, rfl, rfl, rfl, rfl, ?_⟩
        show (s.out.dropped id).withAgain id (s.postedAgain e.content) = _
        cases e.content with
        | claim a | release | standing | rollcall p v f => simp only [State.postedAgain]; split <;> rfl
        | leave => rfl
        | expire x q =>
          cases hr : s.table.rec? x with
          | none => simp only [State.postedAgain, hr]; rfl
          | some p => simp only [State.postedAgain, hr, Option.bind_some]; split <;> rfl
      case leaveDropped =>
        intro hcontent hs hnone hawaited
        obtain rfl : id = .leave := by rw [← hslot, hcontent]; rfl
        rw [← hring]
        exact listFailed_of_awaited_leave h hcontent hs hnone hawaited
      case silent => exact listFailed_isolates h hslot hown
      case silentLeaving => exact listFailed_takesOffline h hslot hown

end Sys2Proof.Machine
end

section
/-! SUPPORT. The end of a heard frame that the station does not take in (R11 to R18), and the statement about it. -/

namespace Sys2Proof.Machine

/-! ## Findings (R3, R11, R14) -/

/-- A finding before the objection slot: a mark missing or a check that differs. -/
theorem Reading.findingBefore_iff (kind : BitVec 4) (r : Reading) :
    (r.markFault || r.crcBad kind) = true ↔ r.markFaultAt ≠ none ∨ r.check ≠ checkOf kind r.sender r.seq r.payload := by
  unfold Reading.crcBad Reading.markFault
  cases r.markFaultAt <;> simp

theorem Reading.finding_iff (kind : BitVec 4) (r : Reading) :
    r.finding kind = true ↔ (r.markFaultAt ≠ none ∨ r.check ≠ checkOf kind r.sender r.seq r.payload) ∨
      r.slot1Fault = true ∨ r.slot2Fault = true := by
  rw [← r.findingBefore_iff kind]
  simp only [Reading.finding, Bool.or_eq_true, or_assoc]

/-- Without a finding a station that takes part echoes a dominant first objection bit (R13). -/
def Reading.echo (part : Bool) (r : Reading) : SlotAct := if part ∧ r.slot1Dominant then .echoed else .none

theorem Reading.echo_isObjection (part : Bool) (r : Reading) : (r.echo part).isObjection = false := by
  unfold Reading.echo
  split <;> rfl

theorem slotDecision_of_quiet {part : Bool} {r : Reading} (h1 : r.slot1Fault = false) :
    slotDecision part false r.slot1Fault r.slot1Dominant = r.echo part := by
  rw [h1]
  unfold Reading.echo
  cases part <;> cases r.slot1Dominant <;> rfl

/-! ## The end of a heard frame -/

/-- A finding that brings no objection is one reception error, and the frame is taken in by no block (R16). -/
theorem heardEnd_of_finding {kind : BitVec 4} {r : Reading} {s : State} {d : SlotAct} (void : Bool)
    (hd : slotDecision s.control.station.takesPart (r.markFault || r.crcBad kind) r.slot1Fault r.slot1Dominant = d)
    (hobj : d.isObjection = false) (hf : r.finding kind = true) :
    heardEnd kind r void s = bump .receptionErrors (s.setLine (s.line.frameEnded d)) := by
  simp [heardEnd, hd, hobj, hf]

/-- An objection is counted beside the reception error and lengthens the run (R12, R97). -/
theorem heardEnd_of_objection {kind : BitVec 4} {r : Reading} {s : State} {d : SlotAct} (void : Bool)
    (hp : s.control.station.takesPart = true) (hrun : s.control.run < 15)
    (hd : slotDecision true (r.markFault || r.crcBad kind) r.slot1Fault r.slot1Dominant = d)
    (hobj : d.isObjection = true) :
    heardEnd kind r void s = (bump .objections (bump .receptionErrors (s.setLine (s.line.frameEnded d)))).setControl
      { s.control with run := s.control.run + 1 } := by
  have hf : r.finding kind = true := by
    rcases finding_of_objection (hd ▸ hobj) with h | h <;> simp [Reading.finding, h]
  have hcount := countObjection_of_short (s := bump .receptionErrors (s.setLine (s.line.frameEnded d))) hp hrun
  simp only [heardEnd, hp, hd, hobj, hf, hcount, Bool.or_true, if_true]
  rfl

/-- Without a finding the interface waits for idle, having echoed if it may, and what follows depends on how the frame
ended and on its kind (R13 to R18). -/
theorem heardEnd_of_clean {kind : BitVec 4} {r : Reading} {s : State} (void : Bool) (hf : r.finding kind = false) :
    let heard := s.setLine (s.line.frameEnded (r.echo s.control.station.takesPart))
    (void = true → heardEnd kind r void s = heard) ∧
    (void = false → FrameKind.ofCode? kind = none → heardEnd kind r void s = bump .undefinedKinds heard) ∧
    (∀ k, s.control.station.takesPart = false → FrameKind.ofCode? kind = some k → heardEnd kind r void s = heard) := by
  have hparts : (r.markFault || r.crcBad kind) = false ∧ r.slot1Fault = false := by
    simp only [Reading.finding, Bool.or_eq_false_iff] at hf
    simp [hf]
  obtain ⟨hbefore, h1⟩ := hparts
  have hd : slotDecision s.control.station.takesPart (r.markFault || r.crcBad kind) r.slot1Fault r.slot1Dominant =
      r.echo s.control.station.takesPart := by
    rw [hbefore, slotDecision_of_quiet h1]
  refine ⟨?void, ?undefined, ?apart⟩
  case void =>
    rintro rfl
    simp [heardEnd, hd, r.echo_isObjection, hf]
  case undefined =>
    rintro rfl hk
    simp [heardEnd, hd, r.echo_isObjection, hf, hk]
  case apart =>
    intro k hp hk
    rw [hp] at hd
    cases void <;> simp [heardEnd, hp, hd, r.echo_isObjection, hf, hk]

/-- Kinds 0 and 7 to 15 are undefined (R17). -/
theorem FrameKind.ofCode?_undefined : ∀ kind : BitVec 4, kind.toNat = 0 ∨ 7 ≤ kind.toNat →
    FrameKind.ofCode? kind = none := by
  decide

/-- Kinds 1 to 6 are defined (R21). -/
theorem FrameKind.ofCode?_defined : ∀ kind : BitVec 4, 1 ≤ kind.toNat → kind.toNat ≤ 6 →
    (FrameKind.ofCode? kind).isSome = true := by
  decide

/-- Two counts change two counters. -/
theorem counters_of_two_bumps {s u : State} {c d : Counter} (hne : c ≠ d)
    (h : u.port.counters = (bump d (bump c s)).port.counters) :
    u.counter c = satInc (s.counter c) ∧ u.counter d = satInc (s.counter d) ∧ KeepsCounters [c, d] s u := by
  refine ⟨by simp [State.counter_congr h, hne], by simp [State.counter_congr h, hne.symm], fun x hx => ?_⟩
  obtain ⟨hc, hd⟩ : x ≠ c ∧ x ≠ d := by simpa using hx
  simp [State.counter_congr h, hc, hd]

/-! ## The rows -/

/-- A frame row while the interface is IDLE or RECEIVING is a heard frame's end (R4, R5). -/
theorem exec_frameRow_of_heard {kind : BitVec 4} {r : Reading} {row : Instr} {s : State}
    (hrow : (kind, row) ∈ frameRows kind r)
    (hline : s.line.state = .idle ∨ s.line.state = .receiving) :
    ∃ void, exec row s = .next (refresh (heardEnd kind r void s)) := by
  obtain ⟨void, hexec⟩ := exec_frameRow hrow
  exact ⟨void, by rw [hexec, frameEnd_of_heard hline]⟩

/-- Settles O50: what is heard by the findings of the frame, and the two interface states in which nothing is. -/
theorem undefinedKindsAreCounted : Obligations.UndefinedKindsAreCounted := by
  unfold Obligations.UndefinedKindsAreCounted
  refine ⟨?heard, ?unheard⟩
  case heard =>
    intro s kind r hline part echo before found Row same objects errs
    have hfound : r.finding kind = true ↔ found := r.finding_iff kind
    have hbefore : (r.markFault || r.crcBad kind) = true ↔ before := r.findingBefore_iff kind
    have hclean : ¬ found → r.finding kind = false := fun h => Bool.eq_false_iff.mpr (fun e => h (hfound.mp e))
    have hquiet : ¬ before → (r.markFault || r.crcBad kind) = false :=
      fun h => Bool.eq_false_iff.mpr (fun e => h (hbefore.mp e))
    have same_refresh : ∀ u : State, u.out = s.out → u.table = s.table → u.port.ring = s.port.ring →
        u.outside = s.outside → u.engineSide = s.engineSide → same (refresh u) :=
      fun u hout htable hring h he => ⟨hout, htable, hring, keepsPort_refresh h, keeps_refresh h he⟩
    have objects_of : ∀ act : SlotAct, part → s.control.run < 15 →
        slotDecision true (r.markFault || r.crcBad kind) r.slot1Fault r.slot1Dominant = act → act.isObjection = true →
        objects act := by
      intro act hp hrun hd hobj row hrow
      obtain ⟨void, hexec⟩ := exec_frameRow_of_heard hrow hline
      rw [hexec, heardEnd_of_objection void hp hrun hd hobj]
      obtain ⟨herr, hobjections, hkept⟩ := counters_of_two_bumps (s := s) (c := .receptionErrors) (d := .objections)
        (by decide) (u := (bump .objections (bump .receptionErrors (s.setLine (s.line.frameEnded act)))).setControl
          { s.control with run := s.control.run + 1 }) rfl
      exact ⟨_, rfl, rfl, rfl, herr, hobjections, hkept, same_refresh _ rfl rfl rfl rfl rfl⟩
    have errs_of : ∀ act : SlotAct,
        slotDecision s.control.station.takesPart (r.markFault || r.crcBad kind) r.slot1Fault r.slot1Dominant = act →
        act.isObjection = false → found → errs act := by
      intro act hd hobj hf row hrow
      obtain ⟨void, hexec⟩ := exec_frameRow_of_heard hrow hline
      rw [hexec, heardEnd_of_finding void hd hobj (hfound.mpr hf)]
      exact ⟨_, rfl, rfl, rfl, counter_of_bump rfl, keepsCounters_of_bump rfl, same_refresh _ rfl rfl rfl rfl rfl⟩
    refine ⟨?undefined, ?void, ?objected, ?objectedSecond, ?slot2, ?isolatedFinding, ?isolatedClean⟩
    case undefined =>
      intro hnone hkind
      have hexec : exec (.undefinedKindFrame kind r) s = .next (refresh (frameEnd kind r false s)) := rfl
      obtain ⟨-, hundefined, -⟩ := heardEnd_of_clean (s := s) false (hclean hnone)
      rw [hexec, frameEnd_of_heard hline, hundefined rfl (FrameKind.ofCode?_undefined kind hkind)]
      exact ⟨_, rfl, rfl, rfl, counter_of_bump rfl, keepsCounters_of_bump rfl, same_refresh _ rfl rfl rfl rfl rfl⟩
    case void =>
      intro hnone
      have hexec : exec (.voidFrame kind r) s = .next (refresh (frameEnd kind r true s)) := rfl
      obtain ⟨hvoid, -, -⟩ := heardEnd_of_clean (s := s) true (hclean hnone)
      rw [hexec, frameEnd_of_heard hline, hvoid rfl]
      exact ⟨_, rfl, rfl, rfl, rfl, same_refresh _ rfl rfl rfl rfl rfl⟩
    case objected =>
      intro hp hrun hb
      exact objects_of .objected hp hrun (by rw [hbefore.mpr hb]; rfl) rfl
    case objectedSecond =>
      intro hp hrun hb h1
      exact objects_of .objectedSecond hp hrun (by rw [hquiet hb, h1]; rfl) rfl
    case slot2 =>
      intro hp hb h1 h2
      exact errs_of echo (by rw [hquiet hb]; exact slotDecision_of_quiet h1) (r.echo_isObjection _) (.inr (.inr h2))
    case isolatedFinding =>
      intro hs hf
      exact errs_of .none (by rw [hs]; rfl) rfl hf
    case isolatedClean =>
      intro hs hnone row hrow hlow hhigh
      obtain ⟨k, hk⟩ := Option.isSome_iff_exists.mp (FrameKind.ofCode?_defined kind hlow hhigh)
      have hp : s.control.station.takesPart = false := by rw [hs]; rfl
      obtain ⟨void, hexec⟩ := exec_frameRow_of_heard hrow hline
      obtain ⟨-, -, hapart⟩ := heardEnd_of_clean (s := s) void (hclean hnone)
      rw [hexec, hapart k hp hk, hp]
      exact ⟨_, rfl, rfl, rfl, rfl, same_refresh _ rfl rfl rfl rfl rfl⟩
  case unheard =>
    intro s kind r row hrow
    obtain ⟨void, hexec⟩ := exec_frameRow hrow
    exact ⟨fun h => by rw [hexec, frameEnd_of_waitIdle h], fun h => by rw [hexec, frameEnd_of_detached h]⟩

end Sys2Proof.Machine
end

section
/-! SUPPORT. An own frame applied (R14, R15, R24, R46, R83), and the statement about a STANDING and a RELEASE of the
station. -/

namespace Sys2Proof.Machine

/-! ## The own record after giving up -/

/-- A scan accepts only ids of the queue (R76). -/
theorem Table.holding_scanFrom (c : Settings) {id : Nat} : ∀ (q : List Nat) (t : Table), id ∉ q →
    (Table.scanFrom c q t).holding id = t.holding id
  | [], _, _ => rfl
  | x :: rest, t, h => by
    obtain ⟨hx, hrest⟩ : id ≠ x ∧ id ∉ rest := by simpa using h
    unfold Table.scanFrom
    split
    · split
      · rw [Table.holding_scanFrom c rest _ hrest, Table.holding_setHolding, if_neg (fun e => hx e.1)]
      · rfl
    · rfl
    · rfl

theorem Table.holding_giveUp (t : Table) (id : Nat) : (t.giveUp id).holding id = .none := by
  have h : (t.giveUp id).holding id = (t.setHolding id .none).holding id := rfl
  rw [h, Table.holding_setHolding]
  cases hr : t.rec? id <;> simp [Table.holding, hr]

/-- What gave up its share holds nothing after the scan either (R73, R76). -/
theorem Table.holding_scan_giveUp (t : Table) (c : Settings) (id : Nat) :
    ((t.giveUp id).scan c).holding id = .none := by
  have hnot : id ∉ (t.giveUp id).queue := by simp [Table.giveUp]
  exact (Table.holding_scanFrom c _ _ hnot).trans (t.holding_giveUp id)

/-! ## The list and the own record -/

/-- A slot stored in the advanced list (R24, R35). -/
theorem OutList.setSlot_advanced (o : OutList) (fl : Option SlotId) (q : Byte) (n : Nat) (id : SlotId) (sl : Slot) :
    ({ o with flight := fl, seq := q, drops := n } : OutList).setSlot id sl =
      { o.setSlot id sl with flight := fl, seq := q, drops := n } := by
  cases id with
  | expire x => by_cases hx : 1 ≤ x ∧ x ≤ 15 <;> simp [OutList.setSlot, hx]
  | leave | intent | rollcall | standing => rfl

/-- The list after an applied frame whose entry is in flight: the deferred posting takes the slot (R24, R25, R31). -/
theorem listApplied_of_flight {s : State} {id : SlotId} (hf : s.out.flight = some id) :
    listApplied s = s.setOut { s.out.setSlot id ⟨(s.out.slot id).deferred.map Entry.fresh, none⟩ with
      flight := none, seq := s.out.seq + 1, drops := 0 } := by
  simp only [listApplied, hf, State.setOut_out, OutList.slot_update, OutList.setSlot_advanced]
  rfl

/-- The list after an applied frame whose entry was discarded: no slot changes (R37). -/
theorem listApplied_of_discarded {s : State} (hf : s.out.flight = none) :
    listApplied s = s.setOut { s.out with seq := s.out.seq + 1, drops := 0 } := by
  simp [listApplied, hf]

/-- The own record carries the frame's sequence and both own timers restart (R46). -/
theorem renewOwn_of_rec {s : State} {p : Rec} (q : Byte) (h : s.table.rec? s.ownId = some p) :
    renewOwn q s = s.setTable { (s.table.put s.ownId (some { p with seq := q })) with
      renewal := .running s.cfg.renewalTicks, selfLease := .running s.cfg.selfLeaseTicks } := by
  simp [renewOwn, h]

theorem noticeOwn_of_not_member {s : State} (refused : Bool) (hm : s.control.station ≠ .member) :
    noticeOwn refused s = s := by
  simp [noticeOwn, State.isMember, hm]

/-- Outside MEMBER the outcome NONE is OWN_OUTCOME and no notification (R79, R83). -/
theorem ownOutcome_of_none {s : State} (k : FrameKind) (q : Byte) (hown : s.own = .none)
    (hm : s.control.station ≠ .member) :
    ownOutcome k false q s = emit .ownOutcome s.ownId k.code.toNat 0 0 q.toNat s := by
  simp only [ownOutcome, hown]
  exact noticeOwn_of_not_member false hm

/-! ## The delivery -/

/-- The list after an own frame was applied, from an entry in flight or one that was discarded since (R24, R31, R35,
R37). -/
def OutList.AdvancesTo (o : OutList) (id : SlotId) (e : Entry) (d : Option Content) (list : OutList) : Prop :=
  (o.flight = some id ∧ o.slot id = ⟨some e, d⟩ ∧
    list = { o.setSlot id ⟨d.map Entry.fresh, none⟩ with flight := none, seq := o.seq + 1, drops := 0 }) ∨
  (o.flight = none ∧ list = { o with seq := o.seq + 1, drops := 0 })

theorem listApplied_eq {s : State} {id : SlotId} {e : Entry} {d : Option Content} {list : OutList}
    (h : s.out.AdvancesTo id e d list) : listApplied s = s.setOut list := by
  rcases h with ⟨hf, hslot, rfl⟩ | ⟨hf, rfl⟩
  · rw [listApplied_of_flight hf, hslot]
  · exact listApplied_of_discarded hf

/-- The state in which the table takes in an own frame read back without a finding (R14, R15, R31, R97). -/
def State.ownDelivered (s : State) (r : Reading) (list : OutList) : State :=
  (bump .framesApplied ((bump .ownApplied
    (s.setLine (s.line.frameEnded (if r.slot1Dominant then .echoed else .none)))).setOut list)).setControl { s.control with run := 0 }

/-- An own frame read back as sent is delivered: its own table taking it in is all that is left (R14, R15). -/
theorem frameEnd_of_readsBack {s : State} {f : Frame} {r : Reading} {id : SlotId} {e : Entry} {d : Option Content}
    {list : OutList} (h : ReadsBack f r s) (hlist : s.out.AdvancesTo id e d list) :
    frameEnd f.kind.code r false s = takeOwn f (s.ownDelivered r list) := by
  obtain ⟨h1, h2⟩ := h.slots
  have ⟨hline, htx, _, hp⟩ := h
  rw [frameEnd_of_kept false hline htx h.ownBits.fares, ownEnd_of_applied hp h1 h2,
    listApplied_eq (s := bump .ownApplied (s.setLine (s.line.frameEnded
      (if r.slot1Dominant then .echoed else .none)))) hlist]
  rfl

/-- An own STANDING only renews the own record (R46). -/
theorem takeOwn_standing {f : Frame} (s : State) (h : f.kind = .standing) : takeOwn f s = renewOwn f.seq s := by
  simp [takeOwn, h]

/-- An own RELEASE gives up the share, with the scan and its outcome (R46, R73, R83). -/
theorem takeOwn_release {f : Frame} (s : State) (h : f.kind = .release) :
    takeOwn f s = ownOutcome .release false f.seq ((renewOwn f.seq s).setTable
      (((renewOwn f.seq s).table.giveUp (renewOwn f.seq s).ownId).scan (renewOwn f.seq s).cfg)) := by
  simp [takeOwn, h]

/-- Settles O47: the delivery of an own frame, and what the two kinds make of it. -/
theorem ownFramesAdvanceTheSequence : Obligations.OwnFramesAdvanceTheSequence := by
  unfold Obligations.OwnFramesAdvanceTheSequence
  intro s f r p id e d list hback hrec hlist renewed
  have hrenew : renewOwn f.seq (s.ownDelivered r list) = (s.ownDelivered r list).setTable renewed :=
    renewOwn_of_rec (s := s.ownDelivered r list) f.seq hrec
  have hdelivered := frameEnd_of_readsBack hback hlist
  obtain ⟨hown, happlied, hkept⟩ := counters_of_two_bumps (s := s) (c := .ownApplied) (d := .framesApplied) (by decide)
    (u := s.ownDelivered r list) rfl
  refine ⟨fun hkind => ?standing, fun hkind hmember => ?release⟩
  case standing =>
    have hexec : exec (.standing r) s = .next (refresh (frameEnd f.kind.code r false s)) := by rw [hkind]; rfl
    rw [hexec, hdelivered, takeOwn_standing _ hkind, hrenew]
    exact ⟨_, rfl, rfl, rfl, rfl, rfl, hown, happlied, hkept, rfl, keepsPort_refresh rfl, keeps_refresh rfl rfl⟩
  case release =>
    have hexec : exec (.release r) s = .next (refresh (frameEnd f.kind.code r false s)) := by rw [hkind]; rfl
    have hnone : ((s.ownDelivered r list).setTable ((renewed.giveUp s.ownId).scan s.cfg)).own = .none :=
      renewed.holding_scan_giveUp s.cfg s.ownId
    have htake : takeOwn f (s.ownDelivered r list) = emit .ownOutcome s.ownId 3 0 0 f.seq.toNat
        ((s.ownDelivered r list).setTable ((renewed.giveUp s.ownId).scan s.cfg)) := by
      rw [takeOwn_release _ hkind, hrenew]
      exact ownOutcome_of_none (s := (s.ownDelivered r list).setTable ((renewed.giveUp s.ownId).scan s.cfg))
        .release f.seq hnone hmember
    have houtside : (takeOwn f (s.ownDelivered r list)).outside = s.outside := takeOwn_outside f _
    have hside : (takeOwn f (s.ownDelivered r list)).engineSide = s.engineSide := by
      rw [htake, emit_engineSide, State.setTable_engineSide]
      rfl
    rw [htake] at houtside hside
    rw [hexec, hdelivered, htake]
    exact ⟨_, rfl, rfl, rfl, rfl, rfl, hkept, keepsPort_refresh houtside, keeps_refresh houtside hside⟩

end Sys2Proof.Machine
end

section
/-! SUPPORT. What the outgoing list offers and what a posting does to it (R22, R23, R25 to R28, R30), and the statement
about both. -/

namespace Sys2Proof.Machine

/-! ## The offer (R30) -/

/-- While the window is open a slot is sendable if it is that of the ROLLCALL or of the STANDING (R30). -/
theorem SlotId.sendableInWindow_iff (id : SlotId) : id.sendableInWindow = true ↔ id = .rollcall ∨ id = .standing := by
  cases id <;> simp [SlotId.sendableInWindow]

/-- The slot holds an entry that may begin its frame now: pending, not in flight, and of the window's two kinds while
the window is open (R22, R30). -/
def OutList.Sendable (o : OutList) (windowOpen : Bool) (id : SlotId) : Prop :=
  (o.slot id).entry.isSome = true ∧ o.flight ≠ some id ∧ (windowOpen = true → id = .rollcall ∨ id = .standing)

theorem OutList.sendable_iff (o : OutList) (w : Bool) (id : SlotId) :
    ((o.slot id).entry.isSome && o.flight != some id && (!w || id.sendableInWindow)) = true ↔ o.Sendable w id := by
  cases w <;> simp [OutList.Sendable, SlotId.sendableInWindow_iff, and_assoc]

/-- What is offered is the first sendable slot of the order (R30). -/
theorem OutList.offer_eq_some_iff (o : OutList) (w : Bool) (id : SlotId) :
    o.offer w = some id ↔
      o.Sendable w id ∧ ∃ before after, slotOrder = before ++ id :: after ∧ ∀ j ∈ before, ¬ o.Sendable w j := by
  simp only [OutList.offer, List.find?_eq_some_iff_append, o.sendable_iff, Bool.not_eq_true', ← Bool.not_eq_true]

/-- Nothing is offered where no slot of the order is sendable (R30). -/
theorem OutList.offer_eq_none_iff (o : OutList) (w : Bool) :
    o.offer w = none ↔ ∀ id ∈ slotOrder, ¬ o.Sendable w id := by
  simp only [OutList.offer, List.find?_eq_none, o.sendable_iff]

/-! ## Postings (R23, R25 to R28) -/

theorem post_of_takesPart {s : State} (id : SlotId) (c : Content) (hp : s.control.station.takesPart = true) :
    post id c s = s.setOut (s.out.post id c) := by
  simp [post, hp]

@[simp] theorem OutList.post_flight (o : OutList) (id : SlotId) (c : Content) : (o.post id c).flight = o.flight := by
  unfold OutList.post; split <;> simp

theorem OutList.slot_post_ne (o : OutList) (c : Content) {id j : SlotId} (h : j ≠ id) :
    (o.post id c).slot j = o.slot j := by
  unfold OutList.post; split <;> exact o.slot_setSlot_ne _ h

/-- A slot of any kind but EXPIRE reads as what was stored in it (R22). -/
theorem OutList.slot_setSlot_of_ne_expire (o : OutList) (sl : Slot) {id : SlotId} (h : ∀ x, id ≠ .expire x) :
    (o.setSlot id sl).slot id = sl := by
  cases id with
  | expire x => exact absurd rfl (h x)
  | leave | intent | rollcall | standing => rfl

/-- A posting behind an entry in flight is deferred (R25 to R27). -/
theorem OutList.slot_post_of_flight {o : OutList} {id : SlotId} (c : Content) (hid : ∀ x, id ≠ .expire x)
    (hf : o.flight = some id) : (o.post id c).slot id = { o.slot id with deferred := some c } := by
  rw [OutList.post, if_pos hf, o.slot_setSlot_of_ne_expire _ hid]

/-- A posting to a slot not in flight is its pending entry, with both counts 0 (R22, R25 to R27). -/
theorem OutList.slot_post_of_not_flight {o : OutList} {id : SlotId} (c : Content) (hid : ∀ x, id ≠ .expire x)
    (hf : o.flight ≠ some id) : (o.post id c).slot id = { o.slot id with entry := some ⟨c, 0, 0⟩ } := by
  rw [OutList.post, if_neg hf, o.slot_setSlot_of_ne_expire _ hid, Entry.fresh]

/-- An EXPIRE is not posted to a slot that holds one (R28). -/
theorem postExpire_of_entry {s : State} {target : Nat} (q : Byte)
    (h : (s.out.slot (.expire target)).entry.isSome = true) : postExpire target q s = s := by
  simp [postExpire, h]

/-- Settles O33: the offer is the first sendable slot of the order, and a posting is a write of its slot. -/
theorem listOffersAndPostings : Obligations.ListOffersAndPostings := by
  unfold Obligations.ListOffersAndPostings
  refine ⟨fun o w => ⟨rfl, fun id => (o.offer_eq_some_iff w id).mp, (o.offer_eq_none_iff w).mp⟩, fun s id c hid =>
    ⟨post_of_not_takesPart id c, fun hpart => ?posted, fun target q => postExpire_of_entry q⟩⟩
  case posted =>
    rw [post_of_takesPart id c hpart]
    exact ⟨fun j hj => s.out.slot_post_ne c hj, s.out.post_flight id c,
      fun hf => congrArg Slot.entry (OutList.slot_post_of_not_flight c hid hf), OutList.slot_post_of_flight c hid⟩

end Sys2Proof.Machine
end

section
/-! SUPPORT. The state after reset read out, and the statement about it (R86, R115, R123, R160, R185, R190, R192). -/

namespace Sys2Proof.Machine

theorem OutList.reset_slot (id : SlotId) : OutList.reset.slot id = Slot.empty := by
  cases id with
  | expire x => by_cases hx : 1 ≤ x ∧ x ≤ 15 <;> simp [OutList.slot, OutList.reset, hx]
  | leave | intent | rollcall | standing => rfl

theorem Table.reset_rec? (id : Nat) : Table.reset.rec? id = none := by
  by_cases hid : 1 ≤ id ∧ id ≤ 15 <;> simp [Table.rec?, Table.reset, hid]

theorem State.reset_counter (c : Counter) : State.reset.counter c = 0 :=
  Vector.getElem_replicate c.number.isLt

theorem Ring.reset_entries (i : Fin 32) : Ring.reset.entries[i] = Event.zero :=
  Vector.getElem_replicate i.isLt

/-- Settles O3: slots, records, counters and ring entries are read out of constant blocks; every other value stands in
the reset state itself. -/
theorem resetLeaves : Obligations.ResetLeaves := by
  unfold Obligations.ResetLeaves
  refine ⟨rfl, rfl, rfl, OutList.reset_slot, rfl, rfl, rfl, Table.reset_rec?, rfl, rfl, rfl, rfl, by decide, by decide,
    rfl, rfl, rfl, rfl, rfl, rfl, rfl, rfl, rfl, rfl, rfl, rfl, rfl, rfl, rfl, rfl, rfl, rfl, State.reset_counter,
    rfl, rfl, rfl, rfl, rfl, rfl, rfl, rfl, Ring.reset_entries, rfl, fun _ => rfl, rfl, rfl, rfl, rfl, rfl⟩

end Sys2Proof.Machine
end

section
/-! SUPPORT. The notification NONE at the engine (R133, R142): what it posts, what it ends, and that it changes the
engine and the list alone. -/

namespace Sys2Proof.Machine

/-! ## The engine's postings (R125) -/

theorem State.isMember_iff (s : State) : s.isMember = true ↔ s.control.station = .member := by
  simp [State.isMember]

theorem State.takesPart_of_isMember {s : State} (h : s.isMember = true) : s.control.station.takesPart = true := by
  rw [s.isMember_iff.mp h]
  rfl

theorem postIntent_of_member {s : State} (c : Content) (h : s.isMember = true) :
    postIntent c s = s.setOut (s.out.post .intent c) := by
  rw [postIntent, if_pos h, post_of_takesPart .intent c (State.takesPart_of_isMember h)]

theorem postIntent_of_not_member {s : State} (c : Content) (h : s.isMember = false) : postIntent c s = s := by
  simp [postIntent, h]

/-- The share is given up by a RELEASE in the list, or not at all (R125). -/
theorem giveUpShare_eq (s : State) : giveUpShare s = s.setOut s.listReleased := by
  unfold giveUpShare State.listReleased
  cases hm : s.isMember with
  | false => rw [postIntent_of_not_member .release hm]; simp; rfl
  | true =>
    rw [postIntent_of_member .release hm]
    by_cases h : s.own ≠ .none ∨ s.intentBusy = true
    · simp [h]
    · simp [h]; rfl

/-- A MEMBER with a record of NONE releases only what its intent slot still holds (R125). -/
theorem State.listReleased_of_none {s : State} (hm : s.isMember = true) (hown : s.own = .none) : s.listReleased =
    if s.out.intent.entry.isSome ∨ s.out.intent.deferred.isSome then s.out.post .intent .release else s.out := by
  simp [State.listReleased, State.intentBusy, hm, hown]

/-! ## NONE (R133, R142) -/

/-- An engine that waits, or is ACTIVE with a request that is not zero, claims its phase again (R133). -/
theorem notify_none_claims {s : State} (hm : s.isMember = true)
    (h : s.engine.state = .running .waiting ∨
      (s.engine.state = .running .active ∧ s.engine.current.request.isZero = false)) :
    notify .none s = (s.setEngine { s.engine with state := .running .claiming }).setOut
      (s.out.post .intent (.claim s.engine.current.request)) := by
  have hclaim : notify .none s = postClaim (setSub .claiming s) := by
    rcases h with h | ⟨h, hzero⟩ <;> simp [notify, noticeNone, *]
  exact hclaim.trans (postIntent_of_member (s := setSub .claiming s) _ hm)

/-- A running purge ends when the own record holds no vent units any more (R142). -/
theorem notify_none_endsPurge {s : State} (hm : s.isMember = true) (hown : s.own = .none)
    (h : s.engine.state = .held) (hpurge : s.engine.purge.isRunning = true) :
    notify .none s = (s.setEngine { s.engine with purge := .stopped }).setOut
      (if s.out.intent.entry.isSome ∨ s.out.intent.deferred.isSome then s.out.post .intent .release else s.out) := by
  have hend : notify .none s = endPurge s := by
    simp [notify, noticeHeld, h, hpurge, hown, Holding.holdsVent, Holding.held]
  rw [hend, ← State.listReleased_of_none hm hown]
  exact giveUpShare_eq _

/-- In every other state the engine stays as it is (R133, R142). -/
theorem notify_none_stays {s : State} (h : s.engine.state = .running .claiming ∨ s.engine.state = .running .regain ∨
      (s.engine.state = .running .active ∧ s.engine.current.request.isZero = true) ∨
      (s.engine.state = .held ∧ s.engine.purge.isRunning = false) ∨ s.engine.state.underWay = false) :
    notify .none s = s := by
  rcases h with h | h | ⟨h, hzero⟩ | ⟨h, hpurge⟩ | h
  · simp [notify, noticeNone, h]
  · simp [notify, noticeNone, h]
  · simp [notify, noticeNone, h, hzero]
  · simp [notify, noticeHeld, h, hpurge]
  · cases hs : s.engine.state <;> simp_all [notify, EngineState.underWay]

/-- NONE at a MEMBER whose record is NONE changes the engine and the list alone (R133, R142). -/
theorem notify_none_changes {s : State} (hm : s.isMember = true) (hown : s.own = .none) :
    ∃ e o, notify .none s = (s.setEngine e).setOut o := by
  have stays : notify .none s = s → ∃ e o, notify .none s = (s.setEngine e).setOut o := fun h => ⟨s.engine, s.out, h⟩
  cases hs : s.engine.state with
  | running b =>
    cases b with
    | claiming => exact stays (notify_none_stays (.inl hs))
    | waiting => exact ⟨_, _, notify_none_claims hm (.inl hs)⟩
    | active =>
      cases hzero : s.engine.current.request.isZero with
      | false => exact ⟨_, _, notify_none_claims hm (.inr ⟨hs, hzero⟩)⟩
      | true => exact stays (notify_none_stays (.inr (.inr (.inl ⟨hs, hzero⟩))))
    | regain => exact stays (notify_none_stays (.inr (.inl hs)))
  | held =>
    cases hpurge : s.engine.purge.isRunning with
    | true => exact ⟨_, _, notify_none_endsPurge hm hown hs hpurge⟩
    | false => exact stays (notify_none_stays (.inr (.inr (.inr (.inl ⟨hs, hpurge⟩)))))
  | idle | loaded | faulted | complete =>
    exact stays (notify_none_stays (.inr (.inr (.inr (.inr (by rw [hs]; rfl))))))

/-- All that NONE does at a MEMBER whose record is NONE (R133, R142). -/
theorem notify_none_of_member {s : State} (hm : s.isMember = true) (hown : s.own = .none) :
    ∃ e o, notify .none s = (s.setEngine e).setOut o ∧
      (s.engine.state = .running .waiting ∨
          (s.engine.state = .running .active ∧ s.engine.current.request.isZero = false) →
        e = { s.engine with state := .running .claiming } ∧
        o = s.out.post .intent (.claim s.engine.current.request)) ∧
      (s.engine.state = .held → s.engine.purge.isRunning = true → e = { s.engine with purge := .stopped } ∧
        o = (if s.out.intent.entry.isSome ∨ s.out.intent.deferred.isSome then s.out.post .intent .release else s.out)) ∧
      (s.engine.state = .running .claiming ∨ s.engine.state = .running .regain ∨
          (s.engine.state = .running .active ∧ s.engine.current.request.isZero = true) ∨
          (s.engine.state = .held ∧ s.engine.purge.isRunning = false) ∨ s.engine.state.underWay = false →
        e = s.engine ∧ o = s.out) := by
  obtain ⟨e, o, h⟩ := notify_none_changes hm hown
  have left_of : ∀ e' o', notify .none s = (s.setEngine e').setOut o' → e = e' ∧ o = o' := by
    intro e' o' h'
    have hsame : (s.setEngine e).setOut o = (s.setEngine e').setOut o' := h.symm.trans h'
    exact ⟨congrArg State.engine hsame, congrArg State.out hsame⟩
  exact ⟨e, o, h, fun hs => left_of _ _ (notify_none_claims hm hs),
    fun hs hp => left_of _ _ (notify_none_endsPurge hm hown hs hp), fun hs => left_of _ _ (notify_none_stays hs)⟩

/-! ## The outcome of an own CLAIM or RELEASE (R79, R83) -/

/-- In MEMBER the outcome NONE is OWN_OUTCOME and the notification NONE (R79, R83). -/
theorem ownOutcome_of_none_member {s : State} (k : FrameKind) (q : Byte) (hown : s.own = .none)
    (hm : s.isMember = true) :
    ownOutcome k false q s = notify .none (emit .ownOutcome s.ownId k.code.toNat 0 0 q.toNat s) := by
  have hnotice : ∀ u : State, u.isMember = true → u.own = .none → noticeOwn false u = notify .none u := by
    intro u hu hnone
    simp [noticeOwn, hu, hnone]
  simp only [ownOutcome, hown]
  exact hnotice _ hm hown

end Sys2Proof.Machine
end

section
/-! SUPPORT. An own frame of each kind applied (R37, R46): what the table makes of it once it is delivered and the own
record renewed, and the statement about RELEASE in MEMBER, ROLLCALL, LEAVE and EXPIRE. -/

namespace Sys2Proof.Machine

/-! ## The own record renewed (R46) -/

/-- The table with the frame's sequence in the own record and both own timers restarted (R46). -/
def State.renewedTable (s : State) (q : Byte) (p : Rec) : Table :=
  { (s.table.put s.ownId (some { p with seq := q })) with
    renewal := .running s.cfg.renewalTicks, selfLease := .running s.cfg.selfLeaseTicks }

/-- The state in which the kind of an own frame takes effect: delivered and renewed (R15, R31, R46). -/
def State.ownRenewed (s : State) (r : Reading) (q : Byte) (p : Rec) (list : OutList) : State :=
  (s.ownDelivered r list).setTable (s.renewedTable q p)

section
variable (s : State) (r : Reading) (q : Byte) (p : Rec) (list : OutList)

@[simp] theorem State.ownRenewed_cfg : (s.ownRenewed r q p list).cfg = s.cfg := rfl
@[simp] theorem State.ownRenewed_ownId : (s.ownRenewed r q p list).ownId = s.ownId := rfl
@[simp] theorem State.ownRenewed_line : (s.ownRenewed r q p list).line =
    s.line.frameEnded (if r.slot1Dominant then .echoed else .none) := rfl
@[simp] theorem State.ownRenewed_out : (s.ownRenewed r q p list).out = list := rfl
@[simp] theorem State.ownRenewed_table : (s.ownRenewed r q p list).table = s.renewedTable q p := rfl
@[simp] theorem State.ownRenewed_control : (s.ownRenewed r q p list).control = { s.control with run := 0 } := rfl
@[simp] theorem State.ownRenewed_engine : (s.ownRenewed r q p list).engine = s.engine := rfl
@[simp] theorem State.ownRenewed_fault : (s.ownRenewed r q p list).fault = s.fault := rfl
@[simp] theorem State.ownRenewed_ring : (s.ownRenewed r q p list).port.ring = s.port.ring := rfl
@[simp] theorem State.ownRenewed_counters :
    (s.ownRenewed r q p list).port.counters = (s.ownDelivered r list).port.counters := rfl
@[simp] theorem State.ownRenewed_outside : (s.ownRenewed r q p list).outside = s.outside := rfl

end

theorem renewOwn_ownDelivered {s : State} {p : Rec} (r : Reading) (q : Byte) (list : OutList)
    (h : s.table.rec? s.ownId = some p) : renewOwn q (s.ownDelivered r list) = s.ownRenewed r q p list :=
  renewOwn_of_rec (s := s.ownDelivered r list) q h

/-- A peer's record stays when the own one is renewed (R46). -/
theorem State.renewedTable_rec?_of_ne {s : State} (q : Byte) (p : Rec) {j : Nat} (h : j ≠ s.ownId) :
    (s.renewedTable q p).rec? j = s.table.rec? j := by
  have hput : (s.renewedTable q p).rec? j = (s.table.put s.ownId (some { p with seq := q })).rec? j := rfl
  rw [hput, Table.rec?_put, if_neg (fun e => h e.1)]

/-- The own record after its renewal (R46). -/
theorem State.renewedTable_rec?_own {s : State} {p : Rec} (q : Byte) (h : s.table.rec? s.ownId = some p) :
    (s.renewedTable q p).rec? s.ownId = some { p with seq := q } := by
  have hput : (s.renewedTable q p).rec? s.ownId =
    (s.table.put s.ownId (some { p with seq := q })).rec? s.ownId := rfl
  rw [hput, Table.rec?_put, if_pos ⟨rfl, Table.rec?_range h⟩]

/-- A renewal keeps what the own record holds (R46). -/
theorem State.renewedTable_holding_own {s : State} {p : Rec} (q : Byte) (h : s.table.rec? s.ownId = some p) :
    (s.renewedTable q p).holding s.ownId = p.holding :=
  (Table.holding_of_rec (State.renewedTable_rec?_own q h)).trans rfl

/-! ## The rows -/

/-- The row of a frame of this kind. -/
def FrameKind.row (r : Reading) : FrameKind → Instr
  | .expire => .expire r
  | .leave => .leave r
  | .release => .release r
  | .claim => .claim r
  | .rollcall => .rollcall r
  | .standing => .standing r

/-- The row of the frame's kind has the table take it in, where it was read back as sent (R14, R15). -/
theorem exec_ownFrame {s : State} {f : Frame} {r : Reading} {id : SlotId} {e : Entry} {d : Option Content}
    {list : OutList} {k : FrameKind} (hback : ReadsBack f r s) (hlist : s.out.AdvancesTo id e d list)
    (hkind : f.kind = k) : exec (k.row r) s = .next (refresh (takeOwn f (s.ownDelivered r list))) := by
  rw [← frameEnd_of_readsBack hback hlist, hkind]
  cases k <;> rfl

/-! ## The kinds -/

theorem markAnswered_eq (s : State) : markAnswered s = s.setControl { s.control with
    answered := s.control.answered || decide (s.control.station = .gathering ∧ s.out.rollcall = ⟨none, none⟩) } := by
  have hslot : s.out.rollcall = ⟨none, none⟩ ↔ s.out.rollcall.entry = none ∧ s.out.rollcall.deferred = none := by
    cases s.out.rollcall
    simp
  unfold markAnswered
  by_cases h : s.control.station = .gathering ∧ s.out.rollcall.entry = none ∧ s.out.rollcall.deferred = none
  · simp [h, hslot]
  · simp [h, hslot]; rfl

/-- The window opens, and a MEMBER posts a STANDING (R56, R61). -/
theorem openWindow_eq (s : State) : openWindow s =
    (s.setTable { s.table with windowOpen := true, windowTimer := .running (2112 * bitTicks s.line.rate) }).setOut
      (if s.control.station = .member then s.out.post .standing .standing else s.out) := by
  have hopen : ∀ u : State, (if u.isMember then post .standing .standing u else u) =
      u.setOut (if u.control.station = .member then u.out.post .standing .standing else u.out) := by
    intro u
    by_cases hm : u.control.station = .member
    · have hmember : u.isMember = true := u.isMember_iff.mpr hm
      rw [if_pos hm, if_pos hmember, post_of_takesPart _ _ (State.takesPart_of_isMember hmember)]
    · rw [if_neg hm, if_neg (fun h => hm (u.isMember_iff.mp h))]
      rfl
  exact hopen _

/-- After a ROLLCALL with this table the roll-call may be answered, the window is open, and a MEMBER posts a STANDING
(R56, R61, R91). -/
def State.rollCalled (s : State) (t : Table) : State :=
  ((s.setTable { t with windowOpen := true, windowTimer := .running (2112 * bitTicks s.line.rate) }).setControl
    { s.control with
      answered := s.control.answered ||
        decide (s.control.station = .gathering ∧ s.out.rollcall = ⟨none, none⟩) }).setOut
    (if s.control.station = .member then s.out.post .standing .standing else s.out)

theorem openWindow_markAnswered (s : State) (t : Table) :
    openWindow (markAnswered (s.setTable t)) = s.rollCalled t := by
  rw [markAnswered_eq, openWindow_eq]
  rfl

/-- An own ROLLCALL gives up the share, with the scan, and opens the window (R56, R91). -/
theorem takeOwn_rollcall {f : Frame} (s : State) (h : f.kind = .rollcall) :
    takeOwn f s = (renewOwn f.seq s).rollCalled
      (((renewOwn f.seq s).table.giveUp (renewOwn f.seq s).ownId).scan (renewOwn f.seq s).cfg) := by
  rw [← openWindow_markAnswered]
  simp [takeOwn, h]

/-- An own LEAVE takes the station to OFFLINE (R104). -/
theorem takeOwn_leave {f : Frame} (s : State) (h : f.kind = .leave) :
    takeOwn f s = goOffline .leaveApplied (renewOwn f.seq s) := by
  simp [takeOwn, h]

/-- Entry of a LEAVING station with nothing held into OFFLINE, with LEAVE STATION awaited: the station is detached, its
list and its table are empty, and STATION_STATE and COMMAND_DONE are generated (R104, R106). -/
theorem goOffline_of_leaving {s : State} (cause : Cause) (hstation : s.control.station = .leaving)
    (hawaited : s.control.awaited = some .leaveStation) (hown : s.own = .none) :
    goOffline cause s = { s with
      line := s.line.detach
      out := { s.out.emptied with drops := 0 }
      table := s.table.clearAll
      control := ⟨.offline, none, 0, 0, .stopped, .stopped, false, none⟩
      engine := s.engine.afterLost
      port := { s.port with
        ring := (s.port.ring.after .stationState s.ownId 3 0 cause.code 0).after .commandDone s.ownId 2 0
          cause.code 0 } } := by
  have hring : s.ringMoved .offline cause 0 = s.port.ring.after .stationState s.ownId 3 0 cause.code 0 := by
    rw [State.ringMoved_of_none hown, hstation]
    rfl
  rw [goOffline_eq, if_pos hawaited]
  simp only [State.offlined, State.moved, hring]
  rfl

/-- An own EXPIRE that finds its peer with the carried sequence removes it (R51). -/
theorem takeOwn_expire_removes {f : Frame} {s : State} {peer : Rec} (h : f.kind = .expire)
    (hother : f.payload.p0.toNat ≠ (renewOwn f.seq s).ownId)
    (hrec : (renewOwn f.seq s).table.rec? f.payload.p0.toNat = some peer) (hseq : peer.seq = f.payload.p1) :
    takeOwn f s = removePeer f.payload.p0.toNat 1 (renewOwn f.seq s) := by
  simp [takeOwn, h, applyExpire, hrec, hseq, hother]

/-- An own EXPIRE that finds no peer with the carried sequence is one stale expiry (R53). -/
theorem takeOwn_expire_stale {f : Frame} {s : State} (h : f.kind = .expire)
    (hrec : ∀ peer, (renewOwn f.seq s).table.rec? f.payload.p0.toNat = some peer → peer.seq ≠ f.payload.p1) :
    takeOwn f s = bump .staleExpiries (renewOwn f.seq s) := by
  have hstale : applyExpire f.payload.p0.toNat f.payload.p1 false (renewOwn f.seq s) =
      (bump .staleExpiries (renewOwn f.seq s), none) := by
    unfold applyExpire
    split
    case h_1 peer hpeer => exact if_neg (hrec peer hpeer)
    case h_2 => rfl
  simp [takeOwn, h, hstale]

/-! ## What every applied own frame does -/

/-- The counts of an applied own frame, and what no own frame changes (R14, R15). -/
def CountsOwnFrame (s t : State) : Prop :=
  t.counter .ownApplied = satInc (s.counter .ownApplied) ∧
    t.counter .framesApplied = satInc (s.counter .framesApplied) ∧ KeepsPort s t ∧ t.meas = s.meas ∧
    t.fault = s.fault ∧ KeepsBase s t ∧ LoadsFollow s t

theorem countsOwnFrame_refresh {s u : State} (hown : u.counter .ownApplied = satInc (s.counter .ownApplied))
    (happlied : u.counter .framesApplied = satInc (s.counter .framesApplied)) (h : u.outside = s.outside)
    (hfault : u.fault = s.fault) : CountsOwnFrame s (refresh u) :=
  ⟨hown, happlied, keepsPort_refresh h, (outside_meas h :), hfault, keepsBase_refresh h, loadsFollow_refresh h⟩

/-- A frame whose kind counts nothing makes the two counts of its delivery and no other (R14, R15). -/
theorem countsOwnFrame_of_delivered {s u : State} (r : Reading) (list : OutList)
    (hcounters : u.port.counters = (s.ownDelivered r list).port.counters) (h : u.outside = s.outside)
    (hfault : u.fault = s.fault) :
    CountsOwnFrame s (refresh u) ∧ KeepsCounters [.ownApplied, .framesApplied] s (refresh u) := by
  obtain ⟨hown, happlied, hkept⟩ := counters_of_two_bumps (s := s) (c := .ownApplied) (d := .framesApplied)
    (by decide) (u := u) hcounters
  exact ⟨countsOwnFrame_refresh hown happlied h hfault, hkept⟩

theorem OutList.AdvancesTo.seq {o list : OutList} {id : SlotId} {e : Entry} {d : Option Content}
    (h : o.AdvancesTo id e d list) : list.seq = o.seq + 1 := by
  rcases h with ⟨-, -, rfl⟩ | ⟨-, rfl⟩ <;> rfl

end Sys2Proof.Machine
end

section
/-! SUPPORT. The statement about an own RELEASE in MEMBER, ROLLCALL, LEAVE and EXPIRE: the state each row leaves, and
then what that state says. -/

namespace Sys2Proof.Machine

/-! ## The state each row leaves -/

/-- The state in which a RELEASE has been reported and the engine not yet been told (R73, R76, R83). -/
def State.releaseReported (s : State) (r : Reading) (q : Byte) (p : Rec) (list : OutList) : State :=
  emit .ownOutcome s.ownId 3 0 0 q.toNat
    ((s.ownRenewed r q p list).setTable (((s.renewedTable q p).giveUp s.ownId).scan s.cfg))

/-- A reported RELEASE leaves the own record NONE (R73). -/
theorem State.releaseReported_own (s : State) (r : Reading) (q : Byte) (p : Rec) (list : OutList) :
    (s.releaseReported r q p list).own = .none :=
  (s.renewedTable q p).holding_scan_giveUp s.cfg s.ownId

section
variable {s : State} {f : Frame} {r : Reading} {p : Rec} {id : SlotId} {e : Entry} {d : Option Content} {list : OutList}
  (hback : ReadsBack f r s) (hrec : s.table.rec? s.ownId = some p) (hlist : s.out.AdvancesTo id e d list)
include hback hrec hlist

/-- The RELEASE of a MEMBER is reported, and the engine is told NONE (R79, R83). -/
theorem exec_ownRelease (hkind : f.kind = .release) (hmember : s.control.station = .member) :
    exec (.release r) s = .next (refresh (notify .none (s.releaseReported r f.seq p list))) := by
  have hexec : exec (.release r) s = .next (refresh (takeOwn f (s.ownDelivered r list))) :=
    exec_ownFrame hback hlist hkind
  let u := (s.ownRenewed r f.seq p list).setTable (((s.renewedTable f.seq p).giveUp s.ownId).scan s.cfg)
  have hown : u.own = .none := (s.renewedTable f.seq p).holding_scan_giveUp s.cfg s.ownId
  have hm : u.isMember = true := u.isMember_iff.mpr hmember
  rw [hexec, takeOwn_release _ hkind, renewOwn_ownDelivered r f.seq list hrec]
  exact congrArg (fun t => Host.Outcome.next (refresh t)) (ownOutcome_of_none_member (s := u) .release f.seq hown hm)

/-- A ROLLCALL gives up the share, with the scan, and opens the window (R56). -/
theorem exec_ownRollcall (hkind : f.kind = .rollcall) :
    exec (.rollcall r) s = .next (refresh ((s.ownRenewed r f.seq p list).rollCalled
      (((s.renewedTable f.seq p).giveUp s.ownId).scan s.cfg))) := by
  have hexec : exec (.rollcall r) s = .next (refresh (takeOwn f (s.ownDelivered r list))) :=
    exec_ownFrame hback hlist hkind
  rw [hexec, takeOwn_rollcall _ hkind, renewOwn_ownDelivered r f.seq list hrec]
  rfl

/-- A LEAVE takes the station to OFFLINE (R104). -/
theorem exec_ownLeave (hkind : f.kind = .leave) :
    exec (.leave r) s = .next (refresh (goOffline .leaveApplied (s.ownRenewed r f.seq p list))) := by
  have hexec : exec (.leave r) s = .next (refresh (takeOwn f (s.ownDelivered r list))) :=
    exec_ownFrame hback hlist hkind
  rw [hexec, takeOwn_leave _ hkind, renewOwn_ownDelivered r f.seq list hrec]

/-- An EXPIRE whose target is a peer with the carried sequence removes it (R51). -/
theorem exec_ownExpire_removes {peer : Rec} (hkind : f.kind = .expire) (hother : f.payload.p0.toNat ≠ s.ownId)
    (hpeer : s.table.rec? f.payload.p0.toNat = some peer) (hseq : peer.seq = f.payload.p1) :
    exec (.expire r) s = .next (refresh (removePeer f.payload.p0.toNat 1 (s.ownRenewed r f.seq p list))) := by
  have hexec : exec (.expire r) s = .next (refresh (takeOwn f (s.ownDelivered r list))) :=
    exec_ownFrame hback hlist hkind
  have hrenew := renewOwn_ownDelivered r f.seq list hrec
  have hfound : (s.ownRenewed r f.seq p list).table.rec? f.payload.p0.toNat = some peer :=
    (State.renewedTable_rec?_of_ne f.seq p hother).trans hpeer
  rw [hexec, takeOwn_expire_removes hkind (peer := peer) (by rw [hrenew]; exact hother)
    (by rw [hrenew]; exact hfound) hseq, hrenew]

/-- Any other EXPIRE of a target that is not the station itself is one stale expiry (R53). -/
theorem exec_ownExpire_stale (hkind : f.kind = .expire) (hother : f.payload.p0.toNat ≠ s.ownId)
    (hno : ∀ peer, s.table.rec? f.payload.p0.toNat = some peer → peer.seq ≠ f.payload.p1) :
    exec (.expire r) s = .next (refresh (bump .staleExpiries (s.ownRenewed r f.seq p list))) := by
  have hexec : exec (.expire r) s = .next (refresh (takeOwn f (s.ownDelivered r list))) :=
    exec_ownFrame hback hlist hkind
  have hrenew := renewOwn_ownDelivered r f.seq list hrec
  have hnot : ∀ peer, (s.ownRenewed r f.seq p list).table.rec? f.payload.p0.toNat = some peer →
      peer.seq ≠ f.payload.p1 := fun peer h => hno peer ((State.renewedTable_rec?_of_ne f.seq p hother).symm.trans h)
  rw [hexec, takeOwn_expire_stale hkind (by rw [hrenew]; exact hnot), hrenew]

end

/-- A stale expiry is a third count besides the two of the delivery (R14, R15, R53). -/
theorem State.ownRenewed_staleCounters (s : State) (r : Reading) (q : Byte) (p : Rec) (list : OutList) :
    let u := bump .staleExpiries (s.ownRenewed r q p list)
    CountsOwnFrame s (refresh u) ∧ u.counter .staleExpiries = satInc (s.counter .staleExpiries) ∧
      KeepsCounters [.ownApplied, .framesApplied, .staleExpiries] s u := by
  intro u
  obtain ⟨hown, happlied, hkept⟩ := counters_of_two_bumps (s := s) (c := .ownApplied) (d := .framesApplied)
    (by decide) (u := s.ownRenewed r q p list) rfl
  refine ⟨countsOwnFrame_refresh ?_ ?_ (by simp [u]) (by simp [u]), ?_, fun c hc => ?_⟩
  · simpa [u] using hown
  · simpa [u] using happlied
  · simp [u, hkept .staleExpiries (by decide)]
  · obtain ⟨hc1, hc2, hc3⟩ : c ≠ .ownApplied ∧ c ≠ .framesApplied ∧ c ≠ .staleExpiries := by simpa using hc
    simp [u, hc3, hkept c (by simp [hc1, hc2])]

/-! ## The statement -/

/-- Settles O48: the state each row leaves, read field by field; the engine's side of a RELEASE is what NONE does to an
engine of a MEMBER that holds nothing. -/
theorem ownFramesOfEveryKind : Obligations.OwnFramesOfEveryKind := by
  unfold Obligations.OwnFramesOfEveryKind
  intro s f r p id e d list hback hrec hlist renewed applied line
  have hrenewed : s.renewedTable f.seq p = renewed := rfl
  have hseq : list.seq = s.out.seq + 1 := OutList.AdvancesTo.seq hlist
  refine ⟨fun hkind hmember => ?release, fun hkind => ?rollcall, fun hkind hleaving hnone hawaited => ?leave,
    fun x hkind htarget hx => ⟨fun peer hpeer hmatch => ?expireRemoves, fun hno => ?expireStale⟩⟩
  case release =>
    let v := s.releaseReported r f.seq p list
    have hown : v.own = .none := s.releaseReported_own r f.seq p list
    have hm : v.isMember = true := v.isMember_iff.mpr hmember
    obtain ⟨engine, out, hnotify, hclaims, hpurges, hstays⟩ := notify_none_of_member hm hown
    have hengine : v.engine = s.engine := by simp [v, State.releaseReported]
    have hout : v.out = list := by simp [v, State.releaseReported]
    rw [hengine, hout] at hclaims hpurges hstays
    obtain ⟨hcounts, hkept⟩ := countsOwnFrame_of_delivered (s := s) r list (u := (v.setEngine engine).setOut out)
      (by simp [v, State.releaseReported]) (by simp [v, State.releaseReported]) (by simp [v, State.releaseReported])
    rw [exec_ownRelease hback hrec hlist hkind hmember, hnotify]
    refine ⟨_, rfl, hcounts, ?_, ?_, ?_, ?_, hkept, hclaims, hpurges, hstays⟩ <;>
      simp [v, State.releaseReported, line, hrenewed]
  case rollcall =>
    let u := (s.ownRenewed r f.seq p list).rollCalled ((renewed.giveUp s.ownId).scan s.cfg)
    obtain ⟨hcounts, hkept⟩ := countsOwnFrame_of_delivered (s := s) r list (u := u)
      (by simp [u, State.rollCalled]) (by simp [u, State.rollCalled]) (by simp [u, State.rollCalled])
    rw [exec_ownRollcall hback hrec hlist hkind]
    refine ⟨_, rfl, hcounts, ?_, ?_, rfl, rfl, ?_, hkept, ?_⟩ <;>
      simp [State.rollCalled, line, Line.frameEnded, hrenewed]
  case leave =>
    have hown : (s.ownRenewed r f.seq p list).own = .none :=
      (State.renewedTable_holding_own f.seq hrec).trans ((Table.holding_of_rec hrec).symm.trans hnone)
    have hoffline := goOffline_of_leaving (s := s.ownRenewed r f.seq p list) .leaveApplied (by simpa using hleaving)
      (by simpa using hawaited) hown
    obtain ⟨hcounts, hkept⟩ := countsOwnFrame_of_delivered (s := s) r list
      (u := goOffline .leaveApplied (s.ownRenewed r f.seq p list)) (by simp [hoffline]) (by simp) (by simp [hoffline])
    rw [hoffline] at hcounts hkept
    rw [exec_ownLeave hback hrec hlist hkind, hoffline]
    refine ⟨_, rfl, hcounts, ?_, ?_, ?_, ?_, ?_, hkept, ?_⟩
    · simp [Line.detach]
    · simp [Table.clearAll]
    · simp
    · simp [OutList.emptied, hseq]
    · simp [Cause.code]
    · simp
  case expireRemoves =>
    subst htarget
    let u := removePeer f.payload.p0.toNat 1 (s.ownRenewed r f.seq p list)
    obtain ⟨hcounts, hkept⟩ := countsOwnFrame_of_delivered (s := s) r list (u := u)
      (by simp [u, removePeer]) (by simp [u, removePeer]) (by simp [u, removePeer])
    rw [exec_ownExpire_removes hback hrec hlist hkind hx hpeer hmatch]
    refine ⟨_, rfl, hcounts, ?_, ?_, ?_, ?_, ?_, hkept, ?_⟩ <;> simp [removePeer, line, hrenewed]
  case expireStale =>
    subst htarget
    obtain ⟨hcounts, hstale, hkept⟩ := s.ownRenewed_staleCounters r f.seq p list
    rw [exec_ownExpire_stale hback hrec hlist hkind hx hno]
    refine ⟨_, rfl, hcounts, ?_, ?_, ?_, ?_, ?_, hstale, hkept, ?_⟩ <;> simp [line, hrenewed]

end Sys2Proof.Machine
end

section
/-! SUPPORT. An own CLAIM (R67 to R72): what its payload asks for, how the table settles it, and how the outcome is
reported and told to the engine (R79, R83, R84, R131). -/

namespace Sys2Proof.Machine

/-! ## What a CLAIM's payload asks for (R67, R69) -/

theorem Payload.zeroRequest_iff (q : Payload) : q.zeroRequest = true ↔ q.p0 = 0 ∧ q.p1 = 0 ∧ q.p2 = 0 := by
  simp [Payload.zeroRequest, and_assoc]

theorem PhaseKind.ofCode?_eq_some_iff (n : Nat) (k : PhaseKind) : PhaseKind.ofCode? n = some k ↔ k.code = n := by
  constructor
  · intro h
    unfold PhaseKind.ofCode? at h
    split at h <;> cases h <;> rfl
  · rintro rfl
    cases k <;> rfl

/-- The phase kinds have the codes 1 to 7 (R202). -/
theorem PhaseKind.ofCode?_eq_none_iff (n : Nat) : PhaseKind.ofCode? n = none ↔ n < 1 ∨ 7 < n := by
  constructor
  · intro h
    by_contra hn
    have hn : 1 ≤ n ∧ n ≤ 7 := by omega
    obtain ⟨hlow, hhigh⟩ := hn
    interval_cases n <;> cases h
  · intro h
    cases hk : PhaseKind.ofCode? n with
    | none => rfl
    | some k =>
      have hcode := (PhaseKind.ofCode?_eq_some_iff n k).mp hk
      cases k <;> simp only [PhaseKind.code] at hcode <;> omega

/-- A CLAIM asks for amounts no frame may carry, or for no phase kind (R67). -/
theorem Payload.request?_eq_none_iff (q : Payload) : q.request? = none ↔
    63 < q.p0.toNat ∨ 31 < q.p1.toNat ∨ 1 < q.p2.toNat ∨ q.p3.toNat < 1 ∨ 7 < q.p3.toNat := by
  rw [← PhaseKind.ofCode?_eq_none_iff]
  unfold Payload.request?
  split
  case isTrue h => simp only [true_iff]; tauto
  case isFalse h =>
    cases PhaseKind.ofCode? q.p3.toNat with
    | none => simp
    | some k => simp only [reduceCtorEq, or_false, false_iff]; tauto

/-- The amounts and the kind of a request are those of the payload (R67). -/
theorem Payload.request?_fields {q : Payload} {a : Share} (h : q.request? = some a) :
    a.power = q.p0.toNat ∧ a.vent = q.p1.toNat ∧ a.fill = q.p2.toNat ∧ a.kind.code = q.p3.toNat := by
  unfold Payload.request? at h
  split at h
  · cases h
  · split at h
    · next k hk => cases h; exact ⟨rfl, rfl, rfl, (PhaseKind.ofCode?_eq_some_iff _ k).mp hk⟩
    · cases h

/-- Amounts and a phase kind determine the request (R67). -/
theorem Payload.request?_of_fields {q : Payload} {a : Share} (h : q.request? ≠ none) (hpower : a.power = q.p0.toNat)
    (hvent : a.vent = q.p1.toNat) (hfill : a.fill = q.p2.toNat) (hkind : a.kind.code = q.p3.toNat) :
    q.request? = some a := by
  obtain ⟨b, hb⟩ := Option.ne_none_iff_exists'.mp h
  obtain ⟨bpower, bvent, bfill, bkind⟩ := Payload.request?_fields hb
  have hk : a.kind = b.kind := by
    have hcode := (PhaseKind.ofCode?_eq_some_iff b.kind.code a.kind).mpr (hkind.trans bkind.symm)
    exact Option.some.inj (hcode.symm.trans ((PhaseKind.ofCode?_eq_some_iff b.kind.code b.kind).mpr rfl))
  rw [hb]
  cases a
  cases b
  simp_all

/-- A CLAIM that is not zero is refused when it is malformed or asks for more than a whole budget (R67, R69). -/
def Payload.Refused (c : Settings) (q : Payload) : Prop :=
  ¬ (q.p0 = 0 ∧ q.p1 = 0 ∧ q.p2 = 0) ∧
    (63 < q.p0.toNat ∨ 31 < q.p1.toNat ∨ 1 < q.p2.toNat ∨ q.p3.toNat < 1 ∨ 7 < q.p3.toNat ∨
      c.powerBudget.toNat < q.p0.toNat ∨ c.ventBudget.toNat < q.p1.toNat ∨ c.fillBudget.toNat < q.p2.toNat)

theorem claimRefused_iff (c : Settings) (q : Payload) : claimRefused c q = true ↔ q.Refused c := by
  unfold claimRefused Payload.Refused
  rw [← q.zeroRequest_iff]
  cases hr : q.request? with
  | none =>
    have hmalformed := q.request?_eq_none_iff.mp hr
    simp only [Bool.and_true, Bool.not_eq_true', Bool.not_eq_true, iff_self_and]
    intro _
    omega
  | some a =>
    obtain ⟨hpower, hvent, hfill, -⟩ := Payload.request?_fields hr
    have hmalformed := mt q.request?_eq_none_iff.mpr (by simp [hr])
    simp only [Bool.and_eq_true, Bool.or_eq_true, Bool.not_eq_true', Bool.not_eq_true, decide_eq_true_eq, hpower, hvent,
      hfill]
    refine and_congr_right fun _ => ?_
    omega

/-! ## How the table settles it (R68 to R71) -/

/-- A zero or refused CLAIM gives up the share (R68, R69). -/
theorem Table.claim_of_none {t : Table} {c : Settings} {id : Nat} {q : Payload}
    (h : q.zeroRequest = true ∨ claimRefused c q = true) : t.claim c id q = t.giveUp id := by
  rcases h with h | h <;> simp [Table.claim, h]

/-- Any other CLAIM steps down or competes afresh (R70, R71). -/
theorem Table.claim_of_request {t : Table} {c : Settings} {id : Nat} {q : Payload} {a : Share}
    (hzero : q.zeroRequest = false) (hrefused : claimRefused c q = false) (hr : q.request? = some a) :
    t.claim c id q =
      if (t.holding id).stepsDown a then t.setHolding id (.admitted a) else (t.giveUp id).compete c id a := by
  simp [Table.claim, hzero, hrefused, hr]

theorem Holding.stepsDown_iff (h : Holding) (a : Share) : h.stepsDown a = true ↔
    ∃ b, h = .admitted b ∧ a.power ≤ b.power ∧ a.vent ≤ b.vent ∧ a.fill ≤ b.fill := by
  cases h <;> simp [Holding.stepsDown, and_assoc]

/-- With nobody waiting a request that fits is admitted at once (R71). -/
theorem Table.compete_admits {t : Table} {c : Settings} {id : Nat} {a : Share} (hq : t.queue = [])
    (hf : t.fits c a = true) : t.compete c id a = t.setHolding id (.admitted a) := by
  simp [Table.compete, hq, hf]

/-- Behind others, or when it does not fit, a request waits at the end of the queue (R71). -/
theorem Table.compete_waits {t : Table} {c : Settings} {id : Nat} {a : Share}
    (h : t.queue ≠ [] ∨ t.fits c a = false) :
    t.compete c id a = { t.setHolding id (.waiting a none) with queue := t.queue ++ [id] } := by
  rcases h with h | h <;> simp [Table.compete, h]

/-- A CLAIM settles the record: zero or refused it gives up, a step down keeps the place, and any other competes afresh
(R68 to R71). -/
theorem Table.claim_settles (t : Table) (c : Settings) (id : Nat) (q : Payload) :
    ((q.p0 = 0 ∧ q.p1 = 0 ∧ q.p2 = 0) ∨ q.Refused c → t.claim c id q = t.giveUp id) ∧
    (∀ a : Share, ¬ (q.p0 = 0 ∧ q.p1 = 0 ∧ q.p2 = 0) → ¬ q.Refused c → a.power = q.p0.toNat → a.vent = q.p1.toNat →
      a.fill = q.p2.toNat → a.kind.code = q.p3.toNat →
      (∀ b, t.holding id = .admitted b → a.power ≤ b.power → a.vent ≤ b.vent → a.fill ≤ b.fill →
        t.claim c id q = t.setHolding id (.admitted a)) ∧
      (¬ (∃ b, t.holding id = .admitted b ∧ a.power ≤ b.power ∧ a.vent ≤ b.vent ∧ a.fill ≤ b.fill) →
        ((t.giveUp id).queue = [] → (t.giveUp id).fits c a = true →
          t.claim c id q = (t.giveUp id).setHolding id (.admitted a)) ∧
        ((t.giveUp id).queue ≠ [] ∨ (t.giveUp id).fits c a = false →
          t.claim c id q =
            { (t.giveUp id).setHolding id (.waiting a none) with queue := (t.giveUp id).queue ++ [id] }))) := by
  refine ⟨fun h => Table.claim_of_none (h.imp q.zeroRequest_iff.mpr (claimRefused_iff c q).mpr), ?_⟩
  intro a hnz hnr hpower hvent hfill hcode
  have hzero : q.zeroRequest = false := Bool.eq_false_iff.mpr (fun h => hnz (q.zeroRequest_iff.mp h))
  have hrefused : claimRefused c q = false := Bool.eq_false_iff.mpr (fun h => hnr ((claimRefused_iff c q).mp h))
  have hsome : q.request? ≠ none := by
    intro h
    have hmalformed := q.request?_eq_none_iff.mp h
    exact hnr ⟨hnz, by tauto⟩
  have hclaim := Table.claim_of_request (t := t) (id := id) hzero hrefused
    (Payload.request?_of_fields hsome hpower hvent hfill hcode)
  have hstep := (t.holding id).stepsDown_iff a
  refine ⟨fun b hb h1 h2 h3 => ?down, fun hno => ?afresh⟩
  case down => rw [hclaim, if_pos (hstep.mpr ⟨b, hb, h1, h2, h3⟩)]
  case afresh =>
    rw [hclaim, if_neg (fun h => hno (hstep.mp h))]
    exact ⟨Table.compete_admits, Table.compete_waits⟩

/-- With nobody waiting the scan changes nothing (R76). -/
theorem Table.scan_of_empty {t : Table} (c : Settings) (h : t.queue = []) : t.scan c = t := by
  unfold Table.scan
  rw [h]
  cases t
  cases h
  rfl

/-! ## Who is told (R79, R84) -/

/-- In MEMBER the engine hears of the outcome: REFUSED, NONE, WAITING, or ADMITTED after a GRANT (R79, R84). -/
theorem noticeOwn_of_member {s : State} (refused : Bool) (hm : s.control.station = .member) :
    (refused = true → noticeOwn refused s = notify .refused s) ∧
    (refused = false → s.own = .none → noticeOwn refused s = notify .none s) ∧
    (∀ b g, refused = false → s.own = .waiting b g → noticeOwn refused s = notify .waiting s) ∧
    (∀ b, refused = false → s.own = .admitted b →
      noticeOwn refused s = notify .admitted (emit .grant s.ownId b.power b.vent b.fill b.kind.code s)) := by
  have hmember : s.isMember = true := s.isMember_iff.mpr hm
  refine ⟨?_, ?_, ?_, ?_⟩
  · rintro rfl; simp [noticeOwn, hmember]
  · rintro rfl hown; simp [noticeOwn, hmember, hown]
  · rintro b g rfl hown; simp [noticeOwn, hmember, hown]
  · rintro b rfl hown; simp [noticeOwn, hmember, hown, grant]

/-- ADMITTED makes a CLAIMING engine ACTIVE when the share covers its request (R131). -/
theorem notify_admitted_claiming {s : State} {a : Share} (hs : s.engine.state = .running .claiming)
    (hown : s.own = .admitted a) (hcovers : a.covers s.engine.current.request = true) :
    notify .admitted s = s.setEngine { s.engine with state := .running .active } := by
  simp [notify, hs, noticeAdmitted, hown, Holding.coversRequest, hcovers, setSub]

/-! ## An own CLAIM applied (R46, R72, R83) -/

/-- The table after an own CLAIM and its scan (R46, R68 to R71, R76). -/
def State.claimedTable (s : State) (f : Frame) (p : Rec) : Table :=
  ((s.renewedTable f.seq p).claim s.cfg s.ownId f.payload).scan s.cfg

/-- The state in which the outcome of an own CLAIM has been reported and the engine not yet been told (R72, R83). -/
def State.claimReported (s : State) (r : Reading) (f : Frame) (p : Rec) (list : OutList) : State :=
  emit .ownOutcome s.ownId 4
    (if claimRefused s.cfg f.payload then 3 else ((s.claimedTable f p).holding s.ownId).code)
    (if ((s.claimedTable f p).holding s.ownId).isWaiting then queuePos (s.claimedTable f p).queue s.ownId else 0)
    f.seq.toNat ((s.ownRenewed r f.seq p list).setTable (s.claimedTable f p))

/-- An own CLAIM settles the own record, with the scan, its outcome and its notification (R46, R72, R79, R83). -/
theorem takeOwn_claim {f : Frame} (s : State) (h : f.kind = .claim) :
    takeOwn f s = ownOutcome .claim (claimRefused (renewOwn f.seq s).cfg f.payload) f.seq ((renewOwn f.seq s).setTable
      (((renewOwn f.seq s).table.claim (renewOwn f.seq s).cfg (renewOwn f.seq s).ownId f.payload).scan
        (renewOwn f.seq s).cfg)) := by
  simp [takeOwn, h]

/-- The row of an own CLAIM read back as sent: reported, and then told (R79, R83). -/
theorem exec_ownClaim {s : State} {f : Frame} {r : Reading} {p : Rec} {id : SlotId} {e : Entry} {d : Option Content}
    {list : OutList} (hback : ReadsBack f r s) (hrec : s.table.rec? s.ownId = some p)
    (hlist : s.out.AdvancesTo id e d list) (hkind : f.kind = .claim) :
    exec (.claim r) s =
      .next (refresh (noticeOwn (claimRefused s.cfg f.payload) (s.claimReported r f p list))) := by
  have hexec : exec (.claim r) s = .next (refresh (takeOwn f (s.ownDelivered r list))) :=
    exec_ownFrame hback hlist hkind
  rw [hexec, takeOwn_claim _ hkind, renewOwn_ownDelivered r f.seq list hrec]
  rfl

end Sys2Proof.Machine
end

section
/-! SUPPORT. The statement about an own CLAIM, in two halves: every one of them, and the one of a CLAIMING engine that
is admitted at once. -/

namespace Sys2Proof.Machine

/-! ## The state after the report -/

theorem emit_own (k : EventKind) (a b c d e : Nat) (s : State) : (emit k a b c d e s).own = s.own := rfl
theorem setEngine_own (s : State) (e : Engine) : (s.setEngine e).own = s.own := rfl
theorem refresh_own (s : State) : (refresh s).own = s.own := rfl

section
variable (s : State) (r : Reading) (f : Frame) (p : Rec) (list : OutList)

@[simp] theorem State.claimReported_cfg : (s.claimReported r f p list).cfg = s.cfg := by
  simp [State.claimReported]
@[simp] theorem State.claimReported_ownId : (s.claimReported r f p list).ownId = s.ownId := by
  simp [State.ownId]
@[simp] theorem State.claimReported_line : (s.claimReported r f p list).line =
    s.line.frameEnded (if r.slot1Dominant then .echoed else .none) := by
  simp [State.claimReported]
@[simp] theorem State.claimReported_out : (s.claimReported r f p list).out = list := by
  simp [State.claimReported]
@[simp] theorem State.claimReported_table : (s.claimReported r f p list).table = s.claimedTable f p := by
  simp [State.claimReported]
@[simp] theorem State.claimReported_own :
    (s.claimReported r f p list).own = (s.claimedTable f p).holding s.ownId := by
  simp [State.own]
@[simp] theorem State.claimReported_control : (s.claimReported r f p list).control = { s.control with run := 0 } := by
  simp [State.claimReported]
@[simp] theorem State.claimReported_engine : (s.claimReported r f p list).engine = s.engine := by
  simp [State.claimReported]
@[simp] theorem State.claimReported_fault : (s.claimReported r f p list).fault = s.fault := by
  simp [State.claimReported]
@[simp] theorem State.claimReported_counters :
    (s.claimReported r f p list).port.counters = (s.ownDelivered r list).port.counters := by
  simp [State.claimReported]
@[simp] theorem State.claimReported_outside : (s.claimReported r f p list).outside = s.outside := by
  simp [State.claimReported]
theorem State.claimReported_ring : (s.claimReported r f p list).port.ring = s.port.ring.after .ownOutcome s.ownId 4
    (if claimRefused s.cfg f.payload then 3 else ((s.claimedTable f p).holding s.ownId).code)
    (if ((s.claimedTable f p).holding s.ownId).isWaiting then queuePos (s.claimedTable f p).queue s.ownId else 0)
    f.seq.toNat := by
  simp [State.claimReported]

end

/-- A refused CLAIM leaves the own record NONE (R69). -/
theorem State.claimedTable_holding_of_refused (s : State) {f : Frame} (p : Rec)
    (h : claimRefused s.cfg f.payload = true) : (s.claimedTable f p).holding s.ownId = .none := by
  rw [State.claimedTable, Table.claim_of_none (.inr h)]
  exact Table.holding_scan_giveUp _ _ _

theorem keepsCabinet_of_outside {s u : State} (h : u.outside = s.outside) (hengine : u.engine = s.engine)
    (hfault : u.fault = s.fault) : KeepsCabinet s u :=
  ⟨hengine, outside_meas h, hfault⟩

/-! ## Admitted at once (R71) -/

/-- What fits depends on the sums alone (R65, R66). -/
theorem Table.fits_congr {t u : Table} (c : Settings) (a : Share) (h : ∀ g, t.heldSum g = u.heldSum g) :
    t.fits c a = u.fits c a := by
  unfold Table.fits Table.freePower Table.freeVent Table.freeFill
  rw [h, h, h]

/-- A renewal keeps the sums (R46, R65). -/
theorem State.renewedTable_heldSum {s : State} {p : Rec} (q : Byte) (h : s.table.rec? s.ownId = some p)
    (g : Share → Nat) : (s.renewedTable q p).heldSum g = s.table.heldSum g := by
  have hput := s.table.heldSum_put g s.ownId (some { p with seq := q }) (Table.rec?_range h)
  rw [h] at hput
  exact Nat.add_right_cancel hput

/-- Giving up nothing keeps the sums (R65, R73). -/
theorem Table.heldSum_giveUp_of_none {t : Table} {id : Nat} {p : Rec} (h : t.rec? id = some p)
    (hnone : p.holding = .none) (g : Share → Nat) : (t.giveUp id).heldSum g = t.heldSum g := by
  have hset := t.heldSum_setHolding g id .none p h
  rw [hnone] at hset
  exact hset

theorem Table.rec?_giveUp_of_ne (t : Table) {id j : Nat} (h : j ≠ id) : (t.giveUp id).rec? j = t.rec? j := by
  have hset : (t.giveUp id).rec? j = (t.setHolding id .none).rec? j := rfl
  rw [hset, Table.rec?_setHolding, if_neg h]

theorem Table.giveUp_isSome (t : Table) (id : Nat) : ((t.giveUp id).rec? id).isSome = (t.rec? id).isSome := by
  have hset : (t.giveUp id).rec? id = (t.setHolding id .none).rec? id := rfl
  rw [hset, Table.rec?_setHolding, if_pos rfl, Option.isSome_map]

/-- With nothing held, nobody waiting and a request that fits, an own CLAIM is admitted at once (R71, R76). -/
theorem State.claimedTable_of_fits {s : State} {f : Frame} {p : Rec} {a : Share} (hrec : s.table.rec? s.ownId = some p)
    (hnone : p.holding = .none) (hq : s.table.queue = []) (hr : f.payload.request? = some a)
    (hzero : f.payload.zeroRequest = false) (hrefused : claimRefused s.cfg f.payload = false)
    (hfits : s.table.fits s.cfg a = true) :
    s.claimedTable f p = ((s.renewedTable f.seq p).giveUp s.ownId).setHolding s.ownId (.admitted a) := by
  have hqueue : ((s.renewedTable f.seq p).giveUp s.ownId).queue = [] := by
    simp [Table.giveUp, State.renewedTable, hq]
  have hgiven : ((s.renewedTable f.seq p).giveUp s.ownId).fits s.cfg a = true := by
    rw [← hfits]
    refine Table.fits_congr s.cfg a fun g => ?_
    rw [Table.heldSum_giveUp_of_none (State.renewedTable_rec?_own f.seq hrec) hnone,
      State.renewedTable_heldSum f.seq hrec]
  have hstep : ((s.renewedTable f.seq p).holding s.ownId).stepsDown a = false := by
    rw [State.renewedTable_holding_own f.seq hrec, hnone]
    rfl
  rw [State.claimedTable, Table.claim_of_request hzero hrefused hr, hstep, if_neg Bool.false_ne_true,
    Table.compete_admits hqueue hgiven]
  exact Table.scan_of_empty _ ((Table.setHolding_queue _ _ _).trans hqueue)

theorem Share.covers_self (a : Share) : a.covers a = true := by
  simp [Share.covers]

/-- An own CLAIM admitted with what a CLAIMING engine asks for is reported, and then GRANT is generated and the engine
is ACTIVE (R79, R84, R131). -/
theorem noticeOwn_claimReported_of_admitted {s : State} (r : Reading) {f : Frame} {p : Rec} (list : OutList) {a : Share}
    (hmember : s.control.station = .member) (hclaiming : s.engine.state = .running .claiming)
    (ha : a = s.engine.current.request) (hholding : (s.claimedTable f p).holding s.ownId = .admitted a) :
    noticeOwn false (s.claimReported r f p list) =
      (emit .grant s.ownId a.power a.vent a.fill a.kind.code (s.claimReported r f p list)).setEngine
        { s.engine with state := .running .active } := by
  let g := emit .grant s.ownId a.power a.vent a.fill a.kind.code (s.claimReported r f p list)
  have hown : g.own = .admitted a := by simp [g, emit_own, hholding]
  have hengine : g.engine = s.engine := by simp [g]
  obtain ⟨-, -, -, htold⟩ := noticeOwn_of_member (s := s.claimReported r f p list) false (by simpa using hmember)
  rw [htold a rfl (by simpa using hholding), State.claimReported_ownId, ← hengine]
  exact notify_admitted_claiming (by rw [hengine, hclaiming]) hown (by rw [hengine, ← ha]; exact a.covers_self)

/-- Settles O49: an own CLAIM is reported and then told, by what the table makes of its payload; one admitted at once is
told ADMITTED, which makes a CLAIMING engine ACTIVE. -/
theorem ownClaimReachesTheEngine : Obligations.OwnClaimReachesTheEngine := by
  unfold Obligations.OwnClaimReachesTheEngine
  refine ⟨?admitted, ?every⟩
  case admitted =>
    intro s f r p e a hback hkind hmember hclaiming hrec hnone hq hflight hslot hr ha hzero hrefused hfits
    have htable := State.claimedTable_of_fits hrec hnone hq hr hzero hrefused hfits
    have hholding : (s.claimedTable f p).holding s.ownId = .admitted a := by
      rw [htable, Table.holding_setHolding, Table.giveUp_isSome, State.renewedTable_rec?_own f.seq hrec]
      simp
    obtain ⟨list, hleft⟩ : ∃ list : OutList, list =
        { s.out with intent := ⟨none, none⟩, flight := none, seq := s.out.seq + 1, drops := 0 } := ⟨_, rfl⟩
    have hlist : s.out.AdvancesTo .intent e none list := .inl ⟨hflight, hslot, hleft⟩
    let t := (emit .grant s.ownId a.power a.vent a.fill a.kind.code (s.claimReported r f p list)).setEngine
      { s.engine with state := .running .active }
    have houtside : t.outside = s.outside := by simp [t]
    rw [exec_ownClaim hback hrec hlist hkind, hrefused,
      noticeOwn_claimReported_of_admitted r list hmember hclaiming ha hholding]
    refine ⟨_, rfl, rfl, ?_, ?_, fun j hj => ?_, ?_, ?_, ?_, (outside_meas houtside :), ?_, keepsPort_refresh houtside,
      keepsBase_refresh houtside, loadsFollow_refresh houtside⟩
    · simp [refresh_own, setEngine_own, emit_own, hholding]
    · simp [htable, Table.setHolding_queue, Table.giveUp, State.renewedTable, hq]
    · simp [htable, Table.rec?_setHolding, hj, Table.rec?_giveUp_of_ne, State.renewedTable_rec?_of_ne]
    · simp [State.claimReported_ring, hrefused, hholding, Holding.code, Holding.isWaiting]
    · simp [hleft]
    · simp
    · simp
  case every =>
    intro s f r p id e d list hback hrec hlist hkind renewed given q zero refused
    have hrefused : claimRefused s.cfg q = true ↔ refused := claimRefused_iff s.cfg q
    have hexec := exec_ownClaim hback hrec hlist hkind
    obtain ⟨hown, happlied, hkept⟩ := counters_of_two_bumps (s := s) (c := .ownApplied) (d := .framesApplied)
      (by decide) (u := s.claimReported r f p list) (s.claimReported_counters r f p list)
    have houtside : (s.claimReported r f p list).outside = s.outside := by simp
    obtain ⟨hgives, hsettles⟩ := renewed.claim_settles s.cfg s.ownId q
    rw [show renewed.holding s.ownId = p.holding from State.renewedTable_holding_own f.seq hrec] at hsettles
    refine ⟨renewed.claim s.cfg s.ownId q, s.claimReported r f p list, hgives, hsettles,
      s.claimReported_table r f p list, by simp, by simp, by simp, outside_load houtside,
      keepsCabinet_of_outside houtside (by simp) (by simp), keepsBase_of_outside houtside,
      keepsPort_of_outside houtside, hown, happlied, hkept, ?ringRefused, ?ringSettled, ?apart, ?member⟩
    case ringRefused =>
      intro h
      have hc := hrefused.mpr h
      rw [State.claimReported_ring, State.claimedTable_holding_of_refused s p hc, if_pos hc]
      simp [Holding.isWaiting]
    case ringSettled =>
      intro h
      rw [State.claimReported_ring, if_neg (fun hc => h (hrefused.mp hc)), State.claimReported_own,
        State.claimReported_table]
    case apart =>
      intro hmember
      rw [hexec, noticeOwn_of_not_member _ (by simpa using hmember)]
    case member =>
      intro hmember
      obtain ⟨hRefused, hNone, hWaiting, hAdmitted⟩ := noticeOwn_of_member (s := s.claimReported r f p list)
        (claimRefused s.cfg f.payload) (by simpa using hmember)
      have hsettled : ¬ refused → claimRefused s.cfg f.payload = false :=
        fun h => Bool.eq_false_iff.mpr (fun hc => h (hrefused.mp hc))
      rw [hexec]
      refine ⟨fun h => ?_, fun h hv => ?_, fun b g h hv => ?_, fun b h hv => ?_⟩
      · rw [hRefused (hrefused.mpr h)]
      · rw [hNone (hsettled h) hv]
      · rw [hWaiting b g (hsettled h) hv]
      · rw [hAdmitted b (hsettled h) hv, State.claimReported_ownId]
        rfl

end Sys2Proof.Machine
end

section
/-! SUPPORT. The operations on the share table read out record by record (R41, R45, R65, R66, R73), the admission scan
head by head (R76), and the statement about both. -/

namespace Sys2Proof.Machine

/-! ## One record replaced -/

/-- Replacing a record touches nothing but the records (R38). -/
theorem Table.put_frame (t : Table) (id : Nat) (r : Option Rec) :
    t.put id r = { t with recs := (t.put id r).recs } := by
  unfold Table.put
  split <;> rfl

/-- Replacing another content touches nothing but the records (R38). -/
theorem Table.setHolding_frame (t : Table) (id : Nat) (h : Holding) :
    t.setHolding id h = { t with recs := (t.setHolding id h).recs } := by
  unfold Table.setHolding
  split
  · exact t.put_frame id _
  · rfl

/-- The queue plays no part in the replacement of a record. -/
theorem Table.put_withQueue (t : Table) (q : List Nat) (id : Nat) (r : Option Rec) :
    ({ t with queue := q } : Table).put id r = { t.put id r with queue := q } := by
  unfold Table.put
  split <;> rfl

theorem Table.setHolding_withQueue (t : Table) (q : List Nat) (id : Nat) (h : Holding) :
    ({ t with queue := q } : Table).setHolding id h = { t.setHolding id h with queue := q } := by
  have hrec : ({ t with queue := q } : Table).rec? id = t.rec? id := rfl
  unfold Table.setHolding
  rw [hrec]
  split
  · exact t.put_withQueue q id _
  · rfl

theorem Table.setHolding_of_rec {t : Table} {id : Nat} {r : Rec} (h : t.rec? id = some r) (g : Holding) :
    t.setHolding id g = t.put id (some { r with holding := g }) := by
  simp [Table.setHolding, h]

/-! ## Renewing, giving up and removing (R41, R45, R73) -/

theorem Table.rec?_renew (t : Table) (id j : Nat) (q : Byte) (n : Nat) : (t.renew id q n).rec? j =
    if j = id then (t.rec? id).map (fun r => { r with seq := q, lease := .running n }) else t.rec? j := by
  unfold Table.renew
  cases hr : t.rec? id with
  | none => by_cases hj : j = id <;> simp [hj, hr]
  | some r =>
    have hrange := Table.rec?_range hr
    by_cases hj : j = id <;> simp [Table.rec?_put, hj, hrange]

theorem Table.renew_frame (t : Table) (id : Nat) (q : Byte) (n : Nat) :
    t.renew id q n = { t with recs := (t.renew id q n).recs } := by
  unfold Table.renew
  split
  · exact t.put_frame id _
  · rfl

@[simp] theorem Table.renew_queue (t : Table) (id : Nat) (q : Byte) (n : Nat) : (t.renew id q n).queue = t.queue := by
  rw [t.renew_frame id q n]

/-- A renewal keeps what every record holds (R45). -/
theorem Table.holding_renew (t : Table) (id j : Nat) (q : Byte) (n : Nat) :
    (t.renew id q n).holding j = t.holding j := by
  unfold Table.holding
  rw [Table.rec?_renew]
  by_cases hj : j = id
  · subst hj; cases t.rec? j <;> simp
  · simp [hj]

theorem Table.rec?_giveUp (t : Table) (id j : Nat) : (t.giveUp id).rec? j =
    if j = id then (t.rec? id).map (fun r => { r with holding := .none }) else t.rec? j :=
  t.rec?_setHolding id j .none

theorem Table.giveUp_frame (t : Table) (id : Nat) :
    t.giveUp id = { t with recs := (t.giveUp id).recs, queue := (t.giveUp id).queue } := by
  unfold Table.giveUp
  rw [t.setHolding_frame id .none]

theorem Table.rec?_remove (t : Table) {id : Nat} (h : 1 ≤ id ∧ id ≤ 15) (j : Nat) :
    (t.remove id).rec? j = if j = id then none else t.rec? j := by
  have hput : (t.remove id).rec? j = (t.put id none).rec? j := rfl
  rw [hput, Table.rec?_put]
  simp [h]

theorem Table.remove_frame (t : Table) (id : Nat) :
    t.remove id = { t with recs := (t.remove id).recs, queue := (t.remove id).queue } := by
  unfold Table.remove
  rw [t.put_frame id none]

/-! ## The pools (R65, R66) -/

/-- The fifteen records in the order of their ids (R38). -/
theorem Table.recs_toList (t : Table) : t.recs.toList = (List.range 15).map (fun i => t.rec? (i + 1)) := by
  refine List.ext_getElem (by simp) fun i hi _ => ?_
  have hid : i < 15 := by simpa using hi
  simp [Table.rec?, Nat.not_le.mpr hid]

theorem Table.heldSum_eq (t : Table) (f : Share → Nat) :
    t.heldSum f = ((List.range 15).map (fun i => heldBy f (t.rec? (i + 1)))).sum := by
  rw [Table.heldSum, t.recs_toList, List.map_map]
  rfl

theorem Table.fits_iff (t : Table) (c : Settings) (a : Share) : t.fits c a = true ↔
    a.power ≤ c.powerBudget.toNat - t.heldSum Share.power ∧ a.vent ≤ c.ventBudget.toNat - t.heldSum Share.vent ∧
      a.fill ≤ c.fillBudget.toNat - t.heldSum Share.fill := by
  simp only [Table.fits, Bool.and_eq_true, decide_eq_true_eq, and_assoc]
  rfl

/-! ## The admission scan (R76) -/

/-- The scan goes by the rest of the queue it is given, not by the one the table holds. -/
theorem Table.scanFrom_withQueue (c : Settings) : ∀ (q x : List Nat) (t : Table),
    Table.scanFrom c q { t with queue := x } = Table.scanFrom c q t
  | [], _, _ => rfl
  | id :: rest, x, t => by
    have hholding : ({ t with queue := x } : Table).holding id = t.holding id := rfl
    have hfits : ∀ a, ({ t with queue := x } : Table).fits c a = t.fits c a := fun _ => rfl
    unfold Table.scanFrom
    rw [hholding]
    cases t.holding id with
    | none => rfl
    | admitted a => rfl
    | waiting a g =>
      simp only [hfits, Table.setHolding_withQueue]
      split
      · exact Table.scanFrom_withQueue c rest x _
      · rfl

/-- A WAITING head whose request does not fit stops the scan (R76). -/
theorem Table.scan_of_not_fits {t : Table} {c : Settings} {id : Nat} {rest : List Nat} {a : Share} {g : Option Nat}
    (hq : t.queue = id :: rest) (hw : t.holding id = .waiting a g) (hf : t.fits c a = false) : t.scan c = t := by
  unfold Table.scan
  rw [hq, Table.scanFrom, hw]
  simp only [hf, Bool.false_eq_true, if_false]
  rw [← hq]

/-- A WAITING head whose request fits is admitted and taken from the queue, and the scan goes on (R76). -/
theorem Table.scan_of_fits {t : Table} {c : Settings} {id : Nat} {rest : List Nat} {r : Rec} {a : Share}
    {g : Option Nat} (hq : t.queue = id :: rest) (hr : t.rec? id = some r) (hw : r.holding = .waiting a g)
    (hf : t.fits c a = true) : t.scan c = ({ t.put id (some { r with holding := .admitted a }) with queue := rest } : Table).scan c := by
  have hholding : t.holding id = .waiting a g := (Table.holding_of_rec hr).trans hw
  calc t.scan c = Table.scanFrom c rest (t.setHolding id (.admitted a)) := by
        rw [Table.scan, hq, Table.scanFrom, hholding]; simp only [hf, if_true]
    _ = Table.scanFrom c rest (t.put id (some { r with holding := .admitted a })) := by rw [Table.setHolding_of_rec hr]
    _ = _ := (Table.scanFrom_withQueue c rest rest _).symm

/-- A record after a scan: as it was, or, for a WAITING id of the queue, ADMITTED with its request (R76). -/
def Table.ScanLeaves (t : Table) (q : List Nat) (j : Nat) (r : Option Rec) : Prop :=
  r = t.rec? j ∨
    ∃ p a g, t.rec? j = some p ∧ p.holding = .waiting a g ∧ j ∈ q ∧ r = some { p with holding := .admitted a }

theorem Table.scanFrom_leaves (c : Settings) (j : Nat) : ∀ (q : List Nat) (t : Table),
    t.ScanLeaves q j ((Table.scanFrom c q t).rec? j)
  | [], _ => .inl rfl
  | id :: rest, t => by
    unfold Table.scanFrom
    split
    case h_2 | h_3 => exact .inl rfl
    case h_1 a g hw =>
      split
      case isFalse => exact .inl rfl
      case isTrue =>
        have ih := Table.scanFrom_leaves c j rest (t.setHolding id (.admitted a))
        unfold Table.ScanLeaves at ih
        rw [Table.rec?_setHolding] at ih
        by_cases hj : j = id
        · subst hj
          cases hr : t.rec? j with
          | none => simp [Table.holding, hr] at hw
          | some p =>
            rw [Table.holding_of_rec hr] at hw
            rcases ih with h | ⟨p', b, g', hp', hwait, -, -⟩
            · exact .inr ⟨p, a, g, hr, hw, List.mem_cons_self, by rw [h, if_pos rfl, hr]; rfl⟩
            · rw [if_pos rfl, hr] at hp'
              cases hp'
              cases hwait
        · rw [if_neg hj] at ih
          rcases ih with h | ⟨p, b, g', hp, hwait, hmem, h⟩
          · exact .inl h
          · exact .inr ⟨p, b, g', hp, hwait, List.mem_cons_of_mem _ hmem, h⟩

/-- The scan takes ids from the front of the queue and touches records and queue alone (R76). -/
theorem Table.scanFrom_frame (c : Settings) : ∀ (q : List Nat) (t : Table),
    (Table.scanFrom c q t).queue <:+ q ∧
      Table.scanFrom c q t = { t with recs := (Table.scanFrom c q t).recs, queue := (Table.scanFrom c q t).queue }
  | [], _ => ⟨List.suffix_refl _, rfl⟩
  | id :: rest, t => by
    unfold Table.scanFrom
    split
    case h_2 | h_3 => exact ⟨List.suffix_refl _, rfl⟩
    case h_1 a _ _ =>
      split
      case isFalse => exact ⟨List.suffix_refl _, rfl⟩
      case isTrue =>
        obtain ⟨hqueue, hframe⟩ := Table.scanFrom_frame c rest (t.setHolding id (.admitted a))
        refine ⟨hqueue.trans (List.suffix_cons _ _), hframe.trans ?_⟩
        rw [t.setHolding_frame id (.admitted a)]

/-- Settles O44: each operation is read out record by record; the scan by its head and, for what it leaves, by
induction on the queue. -/
theorem scanAndPools : Obligations.ScanAndPools := by
  unfold Obligations.ScanAndPools
  intro t id c hlow hhigh
  have hid : 1 ≤ id ∧ id ≤ 15 := ⟨hlow, hhigh⟩
  refine ⟨fun q n => ⟨?renewed, fun j hj => ?renewedOther, t.renew_queue id q n, t.renew_frame id q n⟩,
    ⟨?gaveUp, fun j hj => t.rec?_giveUp_of_ne hj, rfl, t.giveUp_frame id⟩,
    ⟨?removed, fun j hj => ?removedOther, rfl, t.remove_frame id⟩, fun f => ?sum, t.fits_iff c, Table.scan_of_empty c,
    fun rest r a g hq hr hw => ⟨Table.scan_of_not_fits hq ((Table.holding_of_rec hr).trans hw),
      Table.scan_of_fits hq hr hw⟩,
    fun r' => ⟨?put, fun j hj => ?putOther, t.put_frame id r'⟩, fun j => ?scan⟩
  case renewed => rw [Table.rec?_renew, if_pos rfl]
  case renewedOther => rw [Table.rec?_renew, if_neg hj]
  case gaveUp => rw [Table.rec?_giveUp, if_pos rfl]
  case removed => rw [t.rec?_remove hid, if_pos rfl]
  case removedOther => rw [t.rec?_remove hid, if_neg hj]
  case sum =>
    rw [t.heldSum_eq]
    refine congrArg List.sum (List.map_congr_left fun i _ => ?_)
    cases t.rec? (i + 1) with
    | none => rfl
    | some r => obtain ⟨_, _, h⟩ := r; cases h <;> rfl
  case put => rw [Table.rec?_put, if_pos ⟨rfl, hid⟩]
  case putOther => rw [Table.rec?_put, if_neg fun e => hj e.1]
  case scan =>
    obtain ⟨hqueue, hframe⟩ := Table.scanFrom_frame c t.queue t
    exact ⟨Table.scanFrom_leaves c j t.queue t, hframe, hqueue⟩

end Sys2Proof.Machine
end

section
/-! SUPPORT. The timers of the station table and of Station Control at their end (R48 to R50, R61, R101, R102), and the
statements about them. -/

namespace Sys2Proof.Machine

/-! ## The rows -/

theorem exec_peerLeaseTimeout (peer : BitVec 4) (s : State) :
    exec (.peerLeaseTimeout peer) s = .next (refresh (peerLeaseOut peer.toNat s)) := rfl
theorem exec_renewalTimeout (s : State) : exec .renewalTimeout s = .next (refresh (renewalOut s)) := rfl
theorem exec_selfLease (s : State) : exec .selfLease s = .next (refresh (selfLeaseOut s)) := rfl
theorem exec_rollcallWindowTimeout (s : State) :
    exec .rollcallWindowTimeout s = .next (refresh (windowOut s)) := rfl
theorem exec_autoRejoin (s : State) : exec .autoRejoin s = .next (refresh (rejoinTimeout s)) := rfl
theorem exec_membershipTimeout (s : State) :
    exec .membershipTimeout s = .next (refresh (membershipTimeout s)) := rfl

/-! ## Leases, renewal and window (R48, R49, R61, R102) -/

/-- The list after an EXPIRE was posted: unchanged where the target's slot holds one already (R28). -/
def OutList.withExpire (o : OutList) (target : Nat) (q : Byte) : OutList :=
  if (o.slot (.expire target)).entry.isSome then o else o.post (.expire target) (.expire target q)

theorem postExpire_of_takesPart {s : State} {target : Nat} (q : Byte) (hp : s.control.station.takesPart = true)
    (h : target ≠ s.ownId) : postExpire target q s = s.setOut (s.out.withExpire target q) := by
  unfold OutList.withExpire
  split
  case isTrue he => exact postExpire_of_entry q he
  case isFalse he =>
    have hpost : postExpire target q s = post (.expire target) (.expire target q) s := by simp [postExpire, he, h]
    rw [hpost, post_of_takesPart _ _ hp]

/-- A lease that runs out stays run out, and the peer's EXPIRE is posted (R48). -/
theorem peerLeaseOut_of_running {s : State} {id : Nat} {p : Rec} (hr : s.table.rec? id = some p)
    (hl : p.lease.isRunning = true) (hp : s.control.station.takesPart = true) (hid : id ≠ s.ownId) :
    peerLeaseOut id s =
      (s.setTable (s.table.put id (some { p with lease := .runOut }))).setOut (s.out.withExpire id p.seq) := by
  have hpost := postExpire_of_takesPart (s := s.setTable (s.table.put id (some { p with lease := .runOut })))
    p.seq hp hid
  unfold peerLeaseOut
  simp only [hr, hl, hp, hid, ne_eq, not_false_eq_true, and_self, if_true]
  exact hpost

/-- In MEMBER the STANDING of R49 and R56 is posted. -/
theorem postStanding_of_member (s : State) : (if s.isMember then post .standing .standing s else s) =
    s.setOut (if s.control.station = .member then s.out.post .standing .standing else s.out) := by
  by_cases hm : s.control.station = .member
  · have hmember : s.isMember = true := s.isMember_iff.mpr hm
    rw [if_pos hm, if_pos hmember, post_of_takesPart _ _ (State.takesPart_of_isMember hmember)]
  · rw [if_neg hm, if_neg fun h => hm (s.isMember_iff.mp h)]
    rfl

/-- A renewal timer that runs out stays run out, and a MEMBER posts a STANDING (R49). -/
theorem renewalOut_of_running {s : State} (h : s.table.renewal.isRunning = true) : renewalOut s =
    (s.setTable { s.table with renewal := .runOut }).setOut
      (if s.control.station = .member then s.out.post .standing .standing else s.out) :=
  (if_pos h).trans (postStanding_of_member (s.setTable { s.table with renewal := .runOut }))

/-- Settles O51: each row is one equation of its timer. -/
theorem leasesRunOut : Obligations.LeasesRunOut := by
  unfold Obligations.LeasesRunOut
  intro s
  refine ⟨fun peer p hr hl hp hid => ?lease, fun h => ?renewal, fun h => ?window, fun h hm => ?membership⟩
  case lease =>
    rw [exec_peerLeaseTimeout, peerLeaseOut_of_running hr hl hp hid]
    exact ⟨_, rfl, rfl, rfl, rfl, rfl, rfl, keeps_refresh rfl rfl⟩
  case renewal =>
    rw [exec_renewalTimeout, renewalOut_of_running h]
    exact ⟨_, rfl, rfl, rfl, rfl, rfl, rfl, keeps_refresh rfl rfl⟩
  case window =>
    have hout : windowOut s = s.setTable { s.table with windowTimer := .runOut } := if_pos h
    rw [exec_rollcallWindowTimeout, hout]
    exact ⟨_, rfl, rfl, rfl, rfl, rfl, rfl, keeps_refresh rfl rfl⟩
  case membership =>
    have hout : membershipTimeout s = s.setControl { s.control with rejoins := 0, memberTimer := .runOut } :=
      if_pos ⟨h, hm⟩
    rw [exec_membershipTimeout, hout]
    exact ⟨_, rfl, rfl, rfl, rfl, rfl, rfl, keeps_refresh rfl rfl⟩

/-! ## Entry into GATHERING (R50, R90, R95, R101) -/

/-- What entry into GATHERING leaves has the effects of R90. -/
theorem enterGathering_entersGathering (cause : Cause) (q : Nat) (s : State) :
    EntersGathering cause q s.out s (refresh (enterGathering cause q s)) := by
  have houtside : (enterGathering cause q s).outside = s.outside := enterGathering_outside cause q s
  have hbase := keepsBase_refresh houtside
  have hloads := loadsFollow_refresh houtside
  rw [enterGathering_eq] at hbase hloads ⊢
  exact ⟨rfl, rfl, rfl, rfl, rfl, rfl, rfl, rfl, hbase, hloads⟩

/-- A resync has the effects of R90 with the list emptied (R95). -/
theorem resync_entersGathering (cause : Cause) (s : State) :
    EntersGathering cause 0 s.out.emptied s (refresh (resync cause s)) := by
  have houtside : (resync cause s).outside = s.outside := resync_outside cause s
  have hbase := keepsBase_refresh houtside
  have hloads := loadsFollow_refresh houtside
  rw [resync_eq] at hbase hloads ⊢
  exact ⟨rfl, rfl, rfl, rfl, rfl, rfl, rfl, rfl, hbase, hloads⟩

/-- Outside MEMBER no load is on (R161, R168). -/
theorem loadsOff_of_not_member {s : State} (h : s.control.station ≠ .member) :
    (refresh s).load.heaters = 0 ∧ (refresh s).load.steam = 0 ∧ (refresh s).load.vent = 0 ∧
      (refresh s).load.fan = false ∧ (refresh s).load.valve = false := by
  have hmember : s.isMember = false := Bool.eq_false_iff.mpr fun e => h (s.isMember_iff.mp e)
  have hgate : s.gateOpen = false := by simp [State.gateOpen, hmember]
  have hload : (refresh s).load = Load.closed s := by simp [Load.follow, hgate]
  have hfan : (Load.closed s).fan = false := by
    unfold Load.closed fanOn
    cases s.engine.loadRequest <;> simp [hmember]
  rw [hload]
  exact ⟨rfl, rfl, rfl, hfan, rfl⟩

/-- A self-lease that runs out takes a MEMBER into a resync (R50). -/
theorem selfLeaseOut_of_member {s : State} (h : s.table.selfLease.isRunning = true) (hm : s.control.station = .member) :
    selfLeaseOut s = resync .selfLease (s.setTable { s.table with selfLease := .runOut }) :=
  (if_pos h).trans (if_pos (State.isMember_iff _ |>.mpr hm))

/-- Outside MEMBER a self-lease only stays run out (R50). -/
theorem selfLeaseOut_of_not_member {s : State} (h : s.table.selfLease.isRunning = true)
    (hm : s.control.station ≠ .member) : selfLeaseOut s = s.setTable { s.table with selfLease := .runOut } :=
  (if_pos h).trans (if_neg fun e => hm ((State.isMember_iff _).mp e))

/-- Below three rejoins the station gathers again (R101). -/
theorem rejoinTimeout_of_rejoins {s : State} (h : s.control.rejoinTimer.isRunning = true)
    (hs : s.control.station = .isolated) (hn : s.control.rejoins < 3) : rejoinTimeout s =
      enterGathering .autoRejoin (s.control.rejoins + 1)
        (s.setControl { s.control with
          rejoins := s.control.rejoins + 1, rejoinTimer := .stopped, isolation := none }) :=
  (if_pos ⟨h, hs⟩).trans (if_pos hn)

/-- After three rejoins the station stays ISOLATED (R101). -/
theorem rejoinTimeout_of_exhausted {s : State} (h : s.control.rejoinTimer.isRunning = true)
    (hs : s.control.station = .isolated) (hn : 3 ≤ s.control.rejoins) :
    rejoinTimeout s = s.setControl { s.control with rejoinTimer := .runOut } :=
  (if_pos ⟨h, hs⟩).trans (if_neg (Nat.not_lt.mpr hn))

/-- Settles O52: a MEMBER's self-lease and an automatic rejoin are entries into GATHERING; the other two rows leave a
timer run out. -/
theorem selfLeaseAndAutoRejoin : Obligations.SelfLeaseAndAutoRejoin := by
  unfold Obligations.SelfLeaseAndAutoRejoin
  refine ⟨fun s hrun => ⟨fun hm => ?resync, fun hm => ?apart⟩, fun s hrun hs => ⟨fun hn => ?rejoin, fun hn => ?stays⟩⟩
  case resync =>
    let u := s.setTable { s.table with selfLease := .runOut }
    have heq := resync_eq .selfLease u
    have hcounters : (resync .selfLease u).port.counters = (bump .resyncs s).port.counters := by rw [heq]; rfl
    have hgathering : (resync .selfLease u).control.station ≠ .member := by rw [heq]; simp
    rw [exec_selfLease, selfLeaseOut_of_member hrun hm]
    refine ⟨_, rfl, resync_entersGathering .selfLease u, ?_, ?_, counter_of_bump hcounters,
      keepsCounters_of_bump hcounters, keepsPort_refresh (resync_outside .selfLease u), ?_,
      loadsOff_of_not_member hgathering⟩
    · rw [heq]
      exact Table.put_selfLease _ _ _
    · rw [heq]; rfl
    · rw [heq]; rfl
  case apart =>
    rw [exec_selfLease, selfLeaseOut_of_not_member hrun hm]
    exact ⟨_, rfl, rfl, rfl, rfl, rfl, rfl, keeps_refresh rfl rfl⟩
  case rejoin =>
    let u := s.setControl { s.control with
      rejoins := s.control.rejoins + 1, rejoinTimer := .stopped, isolation := none }
    have heq := enterGathering_eq .autoRejoin (s.control.rejoins + 1) u
    rw [exec_autoRejoin, rejoinTimeout_of_rejoins hrun hs hn]
    refine ⟨_, rfl, enterGathering_entersGathering .autoRejoin (s.control.rejoins + 1) u, ?_, ?_,
      keepsPort_refresh (enterGathering_outside .autoRejoin (s.control.rejoins + 1) u), ?_⟩
    all_goals
      rw [heq]
      rfl
  case stays =>
    rw [exec_autoRejoin, rejoinTimeout_of_exhausted hrun hs hn]
    exact ⟨_, rfl, rfl, rfl, rfl, rfl, rfl, keeps_refresh rfl rfl⟩

end Sys2Proof.Machine
end

section
/-! SUPPORT. The close of the roll-call window at an idle (R61, R62), the entry into MEMBER that it can bring (R92,
R93), and the statement about both. -/

namespace Sys2Proof.Machine

/-! ## What re-entering a phase leaves of the share-line side (R129, R135) -/

/-- The interface and the table: what decides, beside the list, how an idle goes on. -/
def State.lineAndTable (s : State) : Line × Table := (s.line, s.table)

@[simp] theorem State.setOut_lineAndTable (s : State) (o : OutList) :
    (s.setOut o).lineAndTable = s.lineAndTable := rfl
@[simp] theorem State.setEngine_lineAndTable (s : State) (e : Engine) :
    (s.setEngine e).lineAndTable = s.lineAndTable := rfl
@[simp] theorem State.setFault_lineAndTable (s : State) (f : Option FaultRecord) :
    (s.setFault f).lineAndTable = s.lineAndTable := rfl
@[simp] theorem emit_lineAndTable (k : EventKind) (a b c d e : Nat) (s : State) :
    (emit k a b c d e s).lineAndTable = s.lineAndTable := rfl
@[simp] theorem setSub_lineAndTable (b : Substate) (s : State) : (setSub b s).lineAndTable = s.lineAndTable := rfl

@[simp] theorem giveUpShare_lineAndTable (s : State) : (giveUpShare s).lineAndTable = s.lineAndTable := by
  rw [giveUpShare_eq, State.setOut_lineAndTable]

@[simp] theorem postClaim_lineAndTable (s : State) : (postClaim s).lineAndTable = s.lineAndTable := by
  unfold postClaim
  cases hm : s.isMember with
  | true => rw [postIntent_of_member _ hm, State.setOut_lineAndTable]
  | false => rw [postIntent_of_not_member _ hm]

@[simp] theorem enterHeld_lineAndTable (r : HoldReason) (l : Option Substate) (p : Option Nat) (s : State) :
    (enterHeld r l p s).lineAndTable = s.lineAndTable := by
  cases p <;> simp [enterHeld]

@[simp] theorem enterFaulted_lineAndTable (c : FaultCode) (b : FaultSub) (s : State) :
    (enterFaulted c b s).lineAndTable = s.lineAndTable := by
  simp [enterFaulted]

@[simp] theorem claimPhase_lineAndTable (s : State) : (claimPhase s).lineAndTable = s.lineAndTable := by
  unfold claimPhase
  cases s.own <;> (simp only []; repeat' split) <;> simp

@[simp] theorem entryTests_lineAndTable (l : Option Substate) (s : State) :
    (entryTests l s).lineAndTable = s.lineAndTable := by
  unfold entryTests
  (simp only []; repeat' split) <;> simp

/-! ## The rest of an idle (R5, R6, R61) -/

/-- What follows at an idle once the window was seen to: a peer's start is heard, or the offer begins (R6). -/
def restOfIdle (deferred : Bool) (s : State) : State := if deferred then hearStart s else sendStart s

theorem atIdle_eq (d : Bool) (s : State) :
    atIdle d s = restOfIdle d (closeWindow (s.setLine s.line.atIdle)) := rfl

/-- At an idle of an interface that has reached it, with no window open, nothing but the rest is left. -/
theorem exec_idle_of_settled {v : State} {l : Line} (d : Bool) (hline : v.line = l.atIdle)
    (hwindow : v.table.windowOpen = false) : exec (.idle d) v = .next (refresh (restOfIdle d v)) := by
  have hstate : v.line.state = .waitIdle ∨ v.line.state = .idle := .inr (by rw [hline]; rfl)
  have hset : v.setLine v.line.atIdle = v := by
    rw [hline]
    show v.setLine l.atIdle = v
    rw [← hline]
    rfl
  rw [exec_idle, idleReached_of_idle hstate, atIdle_eq, hset, closeWindow_of_not (by simp [hwindow])]

/-- The table with the window closed (R61). -/
def Table.closed (t : Table) : Table := { t with windowOpen := false, windowTimer := .stopped }

/-- The state in which the close of the window is told to Station Control (R61, R62). -/
def State.closing (s : State) : State := (s.setLine s.line.atIdle).setTable s.table.closed

/-- The interface may reach an idle, and the open window's time is over (R4, R61). -/
structure ClosesWindow (s : State) : Prop where
  line : s.line.state = .waitIdle ∨ s.line.state = .idle
  isOpen : s.table.windowOpen = true
  timer : s.table.windowTimer = .runOut

theorem ClosesWindow.exec_idle {s : State} (h : ClosesWindow s) (d : Bool) :
    exec (.idle d) s = .next (refresh (restOfIdle d (windowClosed s.closing))) := by
  have hclose : closeWindow (s.setLine s.line.atIdle) = windowClosed s.closing := if_pos ⟨h.isOpen, h.timer⟩
  rw [Machine.exec_idle, idleReached_of_idle h.line, atIdle_eq, hclose]

/-- Unless a GATHERING station was answered, the close ends nothing (R92). -/
theorem windowClosed_of_not {s : State} (h : s.control.station ≠ .gathering ∨ s.control.answered = false) :
    windowClosed s = s := by
  refine if_neg fun hboth => ?_
  obtain ⟨hstation, hanswered⟩ := hboth
  rcases h with h | h
  · exact h hstation
  · simp [hanswered] at h

theorem windowClosed_of_answered {s : State} (hs : s.control.station = .gathering) (ha : s.control.answered = true) :
    windowClosed s = enterMember s := if_pos ⟨hs, ha⟩

/-! ## Entry into MEMBER (R93) -/

/-- The state in which an entry into MEMBER is complete but for the self-lease and the engine (R49, R93). -/
def State.joined (s : State) : State :=
  postOwedRenewal (completeJoin .windowClosed (stationEvent s.control.station .windowClosed 0
    ((s.setControl { s.control with
      station := .member, answered := false, memberTimer := .running s.cfg.leaseTicks }).setTable
        s.table.dropGathered)))

theorem enterMember_eq (s : State) : enterMember s =
    if s.joined.table.selfLease = .runOut then resync .selfLease s.joined else memberEntered s.joined := rfl

/-- The awaited command after an entry into MEMBER: a START STATION or a REJOIN is done (R93). -/
def Control.awaitedAfterJoin (c : Control) : Option Awaited :=
  match c.awaited with
  | some .leaveStation => some .leaveStation
  | some .startStation | some .rejoin | none => none

/-- The ring after a join with this awaited command: COMMAND_DONE for a START STATION or a REJOIN (R93, R106). -/
def Ring.afterJoin (r : Ring) (own : Nat) : Option Awaited → Ring
  | some .startStation => r.after .commandDone own 1 2 2 0
  | some .rejoin => r.after .commandDone own 3 2 2 0
  | some .leaveStation | none => r

/-- An awaited START STATION or REJOIN is done with outcome MEMBER (R93). -/
theorem completeJoin_of_member {s : State} (hs : s.control.station = .member) : completeJoin .windowClosed s =
    (s.setControl { s.control with awaited := s.control.awaitedAfterJoin }).setPort
      { s.port with ring := s.port.ring.afterJoin s.ownId s.control.awaited } := by
  have hcode : s.control.station.code = 2 := by rw [hs]; rfl
  have hkept : ∀ a, s.control.awaited = a → s.setControl { s.control with awaited := a } = s := by
    rintro a rfl
    rfl
  unfold completeJoin commandDone Control.awaitedAfterJoin
  cases ha : s.control.awaited with
  | none => exact (hkept none ha).symm
  | some a =>
    cases a with
    | leaveStation => exact (hkept (some .leaveStation) ha).symm
    | startStation | rejoin => simp only [hcode]; rfl

/-- A renewal owed is a STANDING posted (R49). -/
theorem postOwedRenewal_of_member {s : State} (hs : s.control.station = .member) : postOwedRenewal s =
    s.setOut (if s.table.renewal = .runOut then s.out.post .standing .standing else s.out) := by
  unfold postOwedRenewal
  split
  case isTrue => exact post_of_takesPart _ _ (by rw [hs]; rfl)
  case isFalse => rfl

/-- The entry of a GATHERING station into MEMBER: STATION_STATE, the gathered positions discarded, the membership timer
started, the join done and a renewal owed posted (R49, R93, R106). -/
theorem State.joined_eq {s : State} (hs : s.control.station = .gathering) : s.joined = { s with
    table := s.table.dropGathered
    control := { s.control with
      station := .member, answered := false, memberTimer := .running s.cfg.leaseTicks,
      awaited := s.control.awaitedAfterJoin }
    out := if s.table.renewal = .runOut then s.out.post .standing .standing else s.out
    port := { s.port with
      ring := (s.port.ring.after .stationState s.ownId 1 2 2 0).afterJoin s.ownId s.control.awaited } } := by
  unfold State.joined
  rw [completeJoin_of_member rfl, postOwedRenewal_of_member rfl, hs]
  rfl

/-- An engine in no REGAIN takes no notice of the entry into MEMBER (R135). -/
theorem memberEntered_of_not_regain {s : State} (h : s.engine.state ≠ .running .regain) : memberEntered s = s := by
  unfold memberEntered
  split
  case h_1 hregain => exact absurd hregain h
  all_goals rfl

/-- How an entry of a GATHERING station into MEMBER ends: by a self-lease run out, by an engine in REGAIN, or by
neither (R50, R93, R135). -/
theorem enterMember_ends {s : State} (hs : s.control.station = .gathering) :
    (s.table.selfLease = .runOut → enterMember s = resync .selfLease s.joined) ∧
    (s.table.selfLease ≠ .runOut → s.engine.state = .running .regain →
      enterMember s = entryTests (some .regain) s.joined) ∧
    (s.table.selfLease ≠ .runOut → s.engine.state ≠ .running .regain → enterMember s = s.joined) := by
  have hlease : s.joined.table.selfLease = s.table.selfLease := by rw [State.joined_eq hs]; rfl
  have hengine : s.joined.engine = s.engine := by rw [State.joined_eq hs]
  rw [enterMember_eq, hlease]
  refine ⟨fun h => if_pos h, fun h hregain => ?_, fun h hregain => ?_⟩
  · rw [if_neg h, memberEntered, hengine, hregain]
  · rw [if_neg h, memberEntered_of_not_regain (by rwa [hengine])]

/-! ## The statement -/

/-- The close of the window at an idle of an answered GATHERING station enters MEMBER (R61, R62, R92). -/
theorem ClosesWindow.exec_idle_answered {s : State} (h : ClosesWindow s) (hs : s.control.station = .gathering)
    (ha : s.control.answered = true) (d : Bool) :
    exec (.idle d) s = .next (refresh (restOfIdle d (enterMember s.closing))) := by
  rw [h.exec_idle, windowClosed_of_answered (s := s.closing) hs ha]

/-- Where the close ends no gathering, the rest of the idle is all that is left (R92). -/
theorem ClosesWindow.exec_idle_unended {s : State} (h : ClosesWindow s)
    (hs : s.control.station ≠ .gathering ∨ s.control.answered = false) (d : Bool) :
    exec (.idle d) s = .next (refresh (restOfIdle d s.closing)) := by
  rw [h.exec_idle, windowClosed_of_not (s := s.closing) hs]

/-- The rest of the idle is the same from the state that the close led to. -/
theorem ClosesWindow.exec_idle_of_ends {s v : State} (h : ClosesWindow s) (hs : s.control.station = .gathering)
    (ha : s.control.answered = true) (d : Bool) (hv : enterMember s.closing = v) (hline : v.line = s.line.atIdle)
    (hwindow : v.table.windowOpen = false) : exec (.idle d) s = exec (.idle d) v := by
  rw [h.exec_idle_answered hs ha, hv, exec_idle_of_settled d hline hwindow]

/-- What a record holds after the gathered positions are dropped (R93). -/
theorem Table.holding_dropGathered (t : Table) (id : Nat) :
    t.dropGathered.holding id = (t.holding id).dropGathered := by
  unfold Table.holding
  rw [Table.rec?_dropGathered]
  cases t.rec? id <;> rfl

@[simp] theorem Table.clear_windowOpen (t : Table) (own : Nat) : (t.clear own).windowOpen = false :=
  Table.put_windowOpen _ _ _

/-- Settles O35: the close leaves the rest of the idle to the state with the window closed or to the one entered, whose
own idle is nothing but that rest. -/
theorem windowCloseEndsGathering : Obligations.WindowCloseEndsGathering := by
  unfold Obligations.WindowCloseEndsGathering
  refine ⟨?deferred, ?every⟩
  case deferred =>
    intro s hline hopen htimer hs
    have hcloses : ClosesWindow s := ⟨hline, hopen, htimer⟩
    refine ⟨fun ha => ?waits, fun ha hrenewal hlease hawaited hengine => ?entered⟩
    case waits =>
      obtain ⟨hcabinet, hbase, -⟩ := keeps_refresh (s := s) (u := hearStart s.closing) rfl rfl
      rw [hcloses.exec_idle_unended (.inr ha)]
      exact ⟨_, rfl, rfl, rfl, rfl, rfl, rfl, rfl, rfl, rfl, hcabinet, hbase⟩
    case entered =>
      obtain ⟨-, -, hquiet⟩ := enterMember_ends (s := s.closing) hs
      have hawaits : s.closing.control.awaitedAfterJoin = s.control.awaited := by
        rw [hawaited]
        simp [Control.awaitedAfterJoin, State.closing, hawaited]
      have hring : (s.closing.port.ring.after .stationState s.closing.ownId 1 2 2 0).afterJoin s.closing.ownId
          s.closing.control.awaited = s.port.ring.after .stationState s.ownId 1 2 2 0 := by
        rw [show s.closing.control.awaited = none from hawaited]
        rfl
      rw [hcloses.exec_idle_answered hs ha, hquiet hlease hengine, State.joined_eq (s := s.closing) hs, hawaits, hring]
      exact ⟨_, rfl, rfl, rfl, rfl, rfl, s.table.closed.holding_dropGathered, rfl, if_neg hrenewal, rfl, rfl,
        keepsPort_refresh rfl, keeps_refresh rfl rfl⟩
  case every =>
    intro s d hline hopen htimer closed
    have hcloses : ClosesWindow s := ⟨hline, hopen, htimer⟩
    refine ⟨fun hnot => ?unended, fun hs ha => ?ended⟩
    case unended =>
      have hclose : closeWindow ((s.setTable closed).setLine s.line.atIdle) = s.closing :=
        closeWindow_of_not (by simp [closed])
      rw [hcloses.exec_idle_unended hnot, Machine.exec_idle, idleReached_of_idle (s := s.setTable closed) hline,
        atIdle_eq]
      exact congrArg (fun u => Host.Outcome.next (refresh (restOfIdle d u))) hclose.symm
    case ended =>
      have hjoined := State.joined_eq (s := s.closing) hs
      have hatIdle : s.closing.joined.line = s.line.atIdle := by rw [hjoined]; rfl
      have hclosed : s.closing.joined.table.windowOpen = false := by rw [hjoined]; rfl
      obtain ⟨hlease, hregain, hquiet⟩ := enterMember_ends (s := s.closing) hs
      refine ⟨s.closing.joined, ?table, ?recs, ?control, ?out, hatIdle, ?port, ?load, ?cabinet, ?base,
        fun h => hcloses.exec_idle_of_ends hs ha d (hlease h) ?leaseLine ?leaseWindow,
        fun h he => hcloses.exec_idle_of_ends hs ha d (hregain h he) ?regainLine ?regainWindow,
        fun h he => hcloses.exec_idle_of_ends hs ha d (hquiet h he) hatIdle hclosed⟩
      case leaseLine => rw [resync_eq]; exact hatIdle
      case leaseWindow => rw [resync_eq]; exact Table.clear_windowOpen _ _
      case regainLine => exact (congrArg Prod.fst (entryTests_lineAndTable _ _)).trans hatIdle
      case regainWindow =>
        exact (congrArg (fun x => x.2.windowOpen) (entryTests_lineAndTable _ _)).trans hclosed
      case recs => rw [hjoined]; exact s.table.closed.rec?_dropGathered
      case control =>
        have hawaits : s.closing.control.awaitedAfterJoin = s.control.awaitedAfterJoin := rfl
        rw [hjoined, hawaits]
        unfold Control.awaitedAfterJoin
        rcases s.control.awaited with _ | _ | _ | _ <;> rfl
      case port =>
        have hawaits : s.closing.control.awaited = s.control.awaited := rfl
        rw [hjoined, hawaits]
        rcases s.control.awaited with _ | _ | _ | _ <;> rfl
      case cabinet => rw [hjoined]; exact ⟨rfl, rfl, rfl⟩
      case base => rw [hjoined]; exact ⟨rfl, rfl, rfl⟩
      case table | out | load => rw [hjoined]; rfl

end Sys2Proof.Machine
end

section
/-! SUPPORT. A heard frame that is delivered (R13, R15, R42 to R45, R80): how a row reaches the table, what the tests
make of the frame, and what the frames of the statements about it are. -/

namespace Sys2Proof.Machine

/-! ## Counts -/

theorem bump_port_counters (c : Counter) (s : State) :
    (bump c s).port.counters = s.port.counters.set c.number (satInc s.port.counters[c.number]) := rfl

/-- One count of each of some counters. -/
def bumps (cs : List Counter) (s : State) : State := cs.foldl (fun v c => bump c v) s

/-- Counts of different counters change each of them by one and no other. -/
theorem counters_of_bumps : ∀ {cs : List Counter} {s u : State}, cs.Nodup →
    u.port.counters = (bumps cs s).port.counters →
    (∀ c ∈ cs, u.counter c = satInc (s.counter c)) ∧ KeepsCounters cs s u
  | [], s, u, _, h => ⟨fun c hc => by simp at hc, fun c _ => State.counter_congr h c⟩
  | c :: rest, s, u, hnodup, h => by
    obtain ⟨hnot, hrest⟩ := List.nodup_cons.mp hnodup
    obtain ⟨hcounts, hkept⟩ := counters_of_bumps (cs := rest) (s := bump c s) hrest h
    refine ⟨fun d hd => ?_, fun d hd => ?_⟩
    · rcases List.mem_cons.mp hd with rfl | hd
      · simp [hkept d hnot]
      · have hne : d ≠ c := fun e => hnot (e ▸ hd)
        simp [hcounts d hd, hne]
    · obtain ⟨hne, hd⟩ : d ≠ c ∧ d ∉ rest := by simpa using hd
      simp [hkept d hd, hne]

theorem bumps_concat (cs : List Counter) (c : Counter) (s : State) : bumps (cs ++ [c]) s = bump c (bumps cs s) := by
  simp [bumps]

/-- More counters may differ than those that do. -/
theorem keepsCounters_mono {cs ds : List Counter} {s t : State} (hsub : cs ⊆ ds) (h : KeepsCounters cs s t) :
    KeepsCounters ds s t := fun c hc => h c fun hm => hc (hsub hm)

/-- What is counted does not depend on anything but the counters. -/
theorem bumps_counters_congr : ∀ (cs : List Counter) {s u : State}, u.port.counters = s.port.counters →
    (bumps cs u).port.counters = (bumps cs s).port.counters
  | [], _, _, h => h
  | c :: cs, _, _, h => bumps_counters_congr cs (by rw [bump_port_counters, bump_port_counters, h])

/-! ## Delivery (R13, R15, R97) -/

/-- The frame of a kind that a station read (R7, R8). -/
def Reading.frame (k : FrameKind) (r : Reading) : Frame := ⟨k, r.sender, r.seq, r.payload⟩

theorem FrameKind.ofCode?_code (k : FrameKind) : FrameKind.ofCode? k.code = some k := by
  cases k <;> rfl

/-- A frame of a defined kind heard without a finding is taken in by the table (R15, R18). -/
theorem heardEnd_of_delivered {s : State} {r : Reading} {k : FrameKind} (hp : s.control.station.takesPart = true)
    (hf : r.finding k.code = false) :
    heardEnd k.code r false s = takeHeard (r.frame k) (s.afterHearing r) := by
  obtain ⟨hbefore, h1⟩ : (r.markFault || r.crcBad k.code) = false ∧ r.slot1Fault = false := by
    simp only [Reading.finding, Bool.or_eq_false_iff] at hf
    simp [hf]
  simp only [heardEnd, hp, hbefore, slotDecision_of_sender h1, echo_isObjection, hf, k.ofCode?_code]
  rfl

theorem Hearing.takesPart {s : State} (h : Hearing s) : s.control.station.takesPart = true := by
  obtain ⟨-, hp⟩ := h
  exact hp

/-- The row of a kind has the table take in the frame that was heard without a finding (R15, R18). -/
theorem exec_heardFrame {s : State} {r : Reading} {k : FrameKind} (h : Hearing s) (hf : r.finding k.code = false) :
    exec (k.row r) s = .next (refresh (takeHeard (r.frame k) (s.afterHearing r))) := by
  obtain ⟨hline, hp⟩ := h
  rw [← heardEnd_of_delivered hp hf, ← frameEnd_of_heard hline]
  cases k <;> rfl

/-! ## The tests (R43 to R45) -/

section
variable {f : Frame} {s : State}

theorem takeHeardCore_duplicate (h : f.sender.toNat = s.ownId) : takeHeardCore f s = (s, some .duplicate) := by
  simp [takeHeardCore, h]

theorem takeHeardCore_zero (h : f.sender.toNat ≠ s.ownId) (h0 : f.sender.toNat = 0) :
    takeHeardCore f s = (s, none) := by
  rw [takeHeardCore, if_neg h, if_pos h0]

variable (h : f.sender.toNat ≠ s.ownId) (h0 : f.sender.toNat ≠ 0)
include h h0

theorem takeHeardCore_rollcall (hk : f.kind = .rollcall) :
    takeHeardCore f s = (openWindow (withdraw f.sender.toNat (rollcallPeer f s)), none) := by
  rw [takeHeardCore, if_neg h, if_neg h0, if_pos hk]

theorem takeHeardCore_unknownSender (hk : f.kind ≠ .rollcall) (hs : f.kind ≠ .standing)
    (hr : s.table.rec? f.sender.toNat = none) : takeHeardCore f s = (s, some .unknownSender) := by
  simp [takeHeardCore, h, h0, hk, hr, hs]

theorem takeHeardCore_standingUnknown (hk : f.kind = .standing) (hr : s.table.rec? f.sender.toNat = none) :
    takeHeardCore f s = standingUnknown f s := by
  simp [takeHeardCore, h, h0, hk, hr]

theorem takeHeardCore_sequenceGap {p : Rec} (hk : f.kind ≠ .rollcall) (hr : s.table.rec? f.sender.toNat = some p)
    (hq : f.seq ≠ p.seq + 1) : takeHeardCore f s = (s, some .sequenceGap) := by
  rw [takeHeardCore, if_neg h, if_neg h0, if_neg hk, hr]
  exact if_neg hq

theorem takeHeardCore_next {p : Rec} (hk : f.kind ≠ .rollcall) (hr : s.table.rec? f.sender.toNat = some p)
    (hq : f.seq = p.seq + 1) : takeHeardCore f s = applyHeard f s := by
  simp [takeHeardCore, h, h0, hk, hr, hq]

end

/-! ## What Station Control and the engine hear of it (R42, R80) -/

theorem takeHeard_of_finding {f : Frame} {s t : State} {c : Cause} (h : takeHeardCore f s = (t, some c)) :
    takeHeard f s = onFinding c t := by
  rw [takeHeard, h]

/-- The engine hears only of an own record that was accepted from WAITING (R80). -/
theorem takeHeard_of_effect {f : Frame} {s t : State} (h : takeHeardCore f s = (t, none))
    (hown : s.own.isWaiting = false ∨ t.own = s.own) : takeHeard f s = t := by
  have hquiet : (s.own.isWaiting && t.own.isAdmitted) = false := by
    rcases hown with hw | hsame
    · simp [hw]
    · rw [hsame]
      cases s.own <;> rfl
  rw [takeHeard, h]
  simp [noticeHeard, Bool.and_assoc, hquiet]

/-! ## The frames of a statement about a heard frame -/

section
variable (s : State) (r : Reading)

@[simp] theorem State.afterHearing_cfg : (s.afterHearing r).cfg = s.cfg := rfl
@[simp] theorem State.afterHearing_ownId : (s.afterHearing r).ownId = s.ownId := rfl
@[simp] theorem State.afterHearing_own : (s.afterHearing r).own = s.own := rfl
@[simp] theorem State.afterHearing_line : (s.afterHearing r).line =
    s.line.frameEnded (if r.slot1Dominant then .echoed else .none) := rfl
@[simp] theorem State.afterHearing_out : (s.afterHearing r).out = s.out := rfl
@[simp] theorem State.afterHearing_table : (s.afterHearing r).table = s.table := rfl
@[simp] theorem State.afterHearing_control : (s.afterHearing r).control = { s.control with run := 0 } := rfl
@[simp] theorem State.afterHearing_engine : (s.afterHearing r).engine = s.engine := rfl
@[simp] theorem State.afterHearing_fault : (s.afterHearing r).fault = s.fault := rfl
@[simp] theorem State.afterHearing_ring : (s.afterHearing r).port.ring = s.port.ring := rfl
@[simp] theorem State.afterHearing_outside : (s.afterHearing r).outside = s.outside := rfl

end

theorem State.afterHearing_counter (s : State) (r : Reading) {c : Counter} (h : c ≠ .framesApplied) :
    (s.afterHearing r).counter c = s.counter c := by
  have hbump : (s.afterHearing r).counter c = (bump .framesApplied s).counter c := rfl
  rw [hbump, bump_counter, if_neg h]

/-- What a state that comes of a delivery has in common with every other: the frame counted beside the counts of its
kind, the DEAF run ended, and nothing outside the share-line side and the engine changed (R4, R13, R15, R97). -/
theorem heardFrame_refresh {s u : State} {r : Reading} (cs : List Counter) (hnodup : (.framesApplied :: cs).Nodup)
    (hline : u.line = (s.afterHearing r).line) (hcontrol : u.control = (s.afterHearing r).control)
    (hcounters : u.port.counters = (bumps cs (s.afterHearing r)).port.counters) (houtside : u.outside = s.outside) :
    HeardFrame r s (refresh u) ∧ (∀ c ∈ cs, (refresh u).counter c = satInc (s.counter c)) ∧
      KeepsCounters (.framesApplied :: cs) s (refresh u) ∧ LoadsFollow s (refresh u) := by
  obtain ⟨hcounts, hkept⟩ := counters_of_bumps (s := s.setLine (s.afterHearing r).line) (u := u) hnodup
    (by rw [hcounters]; exact bumps_counters_congr cs rfl)
  exact ⟨⟨hline, hcontrol, hcounts _ List.mem_cons_self, (outside_meas houtside :), keepsBase_refresh houtside,
      keepsPort_refresh houtside⟩, fun c hc => hcounts c (List.mem_cons_of_mem _ hc), hkept,
    loadsFollow_refresh houtside⟩

/-! ## A sender with the next sequence (R45) -/

/-- The state in which the kind of a peer's frame takes effect: delivered, its sender renewed and an EXPIRE for it
withdrawn (R29, R45). -/
def State.heardRenewed (s : State) (r : Reading) : State :=
  withdraw r.sender.toNat ((s.afterHearing r).setTable (s.table.renew r.sender.toNat r.seq s.cfg.leaseTicks))

theorem takeHeardCore_of_fromPeer {s : State} {r : Reading} {k : FrameKind} (h : FromPeer k r s) (hk : k ≠ .rollcall) :
    takeHeardCore (r.frame k) (s.afterHearing r) = applyHeard (r.frame k) (s.afterHearing r) := by
  obtain ⟨-, h0, hown, p, hr, hq⟩ := h
  exact takeHeardCore_next (f := r.frame k) (s := s.afterHearing r) hown h0 hk hr hq

section
variable (s : State) (r : Reading)

@[simp] theorem State.heardRenewed_cfg : (s.heardRenewed r).cfg = s.cfg := rfl
@[simp] theorem State.heardRenewed_line : (s.heardRenewed r).line = (s.afterHearing r).line := rfl
@[simp] theorem State.heardRenewed_out : (s.heardRenewed r).out = s.out.withdraw r.sender.toNat := rfl
@[simp] theorem State.heardRenewed_table :
    (s.heardRenewed r).table = s.table.renew r.sender.toNat r.seq s.cfg.leaseTicks := rfl
@[simp] theorem State.heardRenewed_control : (s.heardRenewed r).control = (s.afterHearing r).control := rfl
@[simp] theorem State.heardRenewed_engine : (s.heardRenewed r).engine = s.engine := rfl
@[simp] theorem State.heardRenewed_fault : (s.heardRenewed r).fault = s.fault := rfl
@[simp] theorem State.heardRenewed_ring : (s.heardRenewed r).port.ring = s.port.ring := rfl
@[simp] theorem State.heardRenewed_counters :
    (s.heardRenewed r).port.counters = (s.afterHearing r).port.counters := rfl
@[simp] theorem State.heardRenewed_outside : (s.heardRenewed r).outside = s.outside := rfl

end

/-- A renewal keeps the own record's content (R45). -/
theorem State.heardRenewed_own (s : State) (r : Reading) : (s.heardRenewed r).own = s.own :=
  s.table.holding_renew r.sender.toNat s.ownId r.seq s.cfg.leaseTicks

theorem State.heardRenewed_holding (s : State) (r : Reading) (id : Nat) :
    (s.heardRenewed r).table.holding id = s.table.holding id :=
  s.table.holding_renew r.sender.toNat id r.seq s.cfg.leaseTicks

theorem State.heardRenewed_queue (s : State) (r : Reading) : (s.heardRenewed r).table.queue = s.table.queue :=
  s.table.renew_queue r.sender.toNat r.seq s.cfg.leaseTicks

/-- The row of a peer's frame that passes the tests and whose kind makes no finding (R45, R80). -/
theorem exec_fromPeer {s t : State} {r : Reading} {k : FrameKind} (hh : Hearing s) (h : FromPeer k r s)
    (hk : k ≠ .rollcall) (happly : applyHeard (r.frame k) (s.afterHearing r) = (t, none))
    (hown : s.own.isWaiting = false ∨ t.own = s.own) : exec (k.row r) s = .next (refresh t) := by
  have ⟨hf, _⟩ := h
  rw [exec_heardFrame hh hf, takeHeard_of_effect ((takeHeardCore_of_fromPeer h hk).trans happly) hown]

/-- The row of a peer's frame that passes the tests and whose kind makes a finding (R42, R45). -/
theorem exec_fromPeer_finding {s t : State} {r : Reading} {k : FrameKind} {c : Cause} (hh : Hearing s)
    (h : FromPeer k r s) (hk : k ≠ .rollcall) (happly : applyHeard (r.frame k) (s.afterHearing r) = (t, some c)) :
    exec (k.row r) s = .next (refresh (onFinding c t)) := by
  have ⟨hf, _⟩ := h
  rw [exec_heardFrame hh hf, takeHeard_of_finding ((takeHeardCore_of_fromPeer h hk).trans happly)]

end Sys2Proof.Machine
end

section
/-! SUPPORT. An EXPIRE, a LEAVE and a RELEASE of a peer (R51, R53, R54, R73), and the statement about them. -/

namespace Sys2Proof.Machine

/-! ## The three kinds -/

/-- An EXPIRE that finds its target, another peer, with the carried sequence removes it (R51). -/
theorem applyExpire_removes {s : State} {target : Nat} {q : Byte} {p : Rec} (w : Bool)
    (hr : s.table.rec? target = some p) (hq : p.seq = q) (hown : target ≠ s.ownId) :
    applyExpire target q w s = (removePeer target 1 s, none) := by
  simp [applyExpire, hr, hq, hown]

/-- An EXPIRE that finds the station itself with the carried sequence is SELF_EXPIRED (R52). -/
theorem applyExpire_selfExpired {s : State} {q : Byte} {p : Rec} (w : Bool) (hr : s.table.rec? s.ownId = some p)
    (hq : p.seq = q) : applyExpire s.ownId q w s = (s, some .selfExpired) := by
  simp [applyExpire, hr, hq]

/-- An EXPIRE that finds no station with the carried sequence is stale (R53). -/
theorem applyExpire_stale {s : State} {target : Nat} {q : Byte} (w : Bool)
    (h : ∀ p, s.table.rec? target = some p → p.seq ≠ q) :
    applyExpire target q w s = (staleExpire target w s, none) := by
  unfold applyExpire
  split
  case h_1 p hp => exact if_neg (h p hp)
  case h_2 => rfl

/-- The list after a stale EXPIRE that withdrew the station's own: posted again for a PRESENT target whose lease has run
out (R53). -/
def State.listPostedAgain (s : State) (target : Nat) : OutList :=
  match s.table.rec? target with
  | some p => if p.lease = .runOut then s.out.post (.expire target) (.expire target p.seq) else s.out
  | none => s.out

theorem State.listPostedAgain_of_runOut {s : State} {target : Nat} {p : Rec} (hp : s.table.rec? target = some p)
    (hl : p.lease = .runOut) : s.listPostedAgain target = s.out.post (.expire target) (.expire target p.seq) := by
  simp [State.listPostedAgain, hp, hl]

theorem State.listPostedAgain_of_not {s : State} {target : Nat}
    (h : ∀ p, s.table.rec? target = some p → p.lease ≠ .runOut) : s.listPostedAgain target = s.out := by
  unfold State.listPostedAgain
  split
  case h_1 p hp => exact if_neg (h p hp)
  case h_2 => rfl

theorem staleExpire_of_kept (target : Nat) (s : State) : staleExpire target false s = bump .staleExpiries s := rfl

theorem staleExpire_of_withdrawn {s : State} {target : Nat} (hp : s.control.station.takesPart = true)
    (hown : target ≠ s.ownId) (he : (s.out.slot (.expire target)).entry = none) :
    staleExpire target true s = (bump .staleExpiries s).setOut (s.listPostedAgain target) := by
  have hrec : (bump .staleExpiries s).table.rec? target = s.table.rec? target := rfl
  unfold staleExpire State.listPostedAgain
  simp only [if_true, hrec]
  cases s.table.rec? target with
  | none => rfl
  | some p =>
    simp only []
    split
    case isFalse => rfl
    case isTrue =>
      rw [postExpire_of_takesPart (s := bump .staleExpiries s) p.seq hp hown, OutList.withExpire, if_neg]
      · rfl
      · simp [he]

theorem OutList.withdraw_slot {o : OutList} {target : Nat} (h : o.expirePending target = true) :
    ((o.withdraw target).slot (.expire target)).entry = none := by
  rw [OutList.withdraw, if_pos h, OutList.slot_setSlot_empty]
  rfl

/-- What the removal of a peer leaves (R41, R76, R77). -/
theorem removePeer_eq (id cause : Nat) (s : State) : removePeer id cause s =
    emit .memberRemoved id cause 0 0 0 (s.setTable ((s.table.remove id).scan s.cfg)) := rfl

/-- The state in which an EXPIRE takes effect: its sender renewed, and EXPIREs for sender and target withdrawn (R29). -/
def State.heardExpire (s : State) (r : Reading) : State := withdraw r.payload.p0.toNat (s.heardRenewed r)

section
variable (s : State) (r : Reading)

@[simp] theorem State.heardExpire_cfg : (s.heardExpire r).cfg = s.cfg := rfl
@[simp] theorem State.heardExpire_own : (s.heardExpire r).own = s.own := s.heardRenewed_own r
@[simp] theorem State.heardExpire_line : (s.heardExpire r).line = (s.afterHearing r).line := rfl
@[simp] theorem State.heardExpire_out :
    (s.heardExpire r).out = (s.out.withdraw r.sender.toNat).withdraw r.payload.p0.toNat := rfl
@[simp] theorem State.heardExpire_table :
    (s.heardExpire r).table = s.table.renew r.sender.toNat r.seq s.cfg.leaseTicks := rfl
@[simp] theorem State.heardExpire_control : (s.heardExpire r).control = (s.afterHearing r).control := rfl
@[simp] theorem State.heardExpire_engine : (s.heardExpire r).engine = s.engine := rfl
@[simp] theorem State.heardExpire_fault : (s.heardExpire r).fault = s.fault := rfl
@[simp] theorem State.heardExpire_ring : (s.heardExpire r).port.ring = s.port.ring := rfl
@[simp] theorem State.heardExpire_counters :
    (s.heardExpire r).port.counters = (s.afterHearing r).port.counters := rfl
@[simp] theorem State.heardExpire_outside : (s.heardExpire r).outside = s.outside := rfl

end

theorem applyHeard_expire (s : State) (r : Reading) : applyHeard (r.frame .expire) (s.afterHearing r) =
    applyExpire r.payload.p0.toNat r.payload.p1 ((s.out.withdraw r.sender.toNat).expirePending r.payload.p0.toNat)
      (s.heardExpire r) := rfl

theorem applyHeard_leave (s : State) (r : Reading) : applyHeard (r.frame .leave) (s.afterHearing r) =
    (removePeer r.sender.toNat 2 (s.heardRenewed r), none) := rfl

theorem applyHeard_release (s : State) (r : Reading) : applyHeard (r.frame .release) (s.afterHearing r) =
    ((s.heardRenewed r).setTable
      (((s.table.renew r.sender.toNat r.seq s.cfg.leaseTicks).giveUp r.sender.toNat).scan s.cfg), none) := rfl

/-! ## The statement -/

/-- Settles O41: the renewed sender first, and then each kind by what it finds in the table. -/
theorem expireRemoves : Obligations.ExpireRemoves := by
  unfold Obligations.ExpireRemoves
  refine ⟨?expire, ?others⟩
  case expire =>
    intro s r hh hpeer id target renewed
    have happly := applyHeard_expire s r
    refine ⟨fun p hwait hp hq htarget => ?removes, fun hno hpending => ?stale, fun hno hpending htarget => ?again⟩
    case removes =>
      rw [applyExpire_removes (s := s.heardExpire r) _ hp hq htarget] at happly
      obtain ⟨hheard, -, hkept, hloads⟩ := heardFrame_refresh (s := s) (r := r)
        (u := removePeer target 1 (s.heardExpire r)) [] (by decide)
        (by simp [removePeer_eq]) (by simp [removePeer_eq]) (by simp [removePeer_eq, bumps]) (by simp)
      refine ⟨_, exec_fromPeer hh hpeer (by decide) happly (.inl hwait), hheard, ?_, ⟨?_, ?_, ?_⟩, ?_, hkept,
        hloads⟩ <;> simp [removePeer_eq, id, target, renewed]
    case stale =>
      rw [applyExpire_stale (s := s.heardExpire r) _ hno, hpending, staleExpire_of_kept] at happly
      obtain ⟨hheard, hcounts, hkept, hloads⟩ := heardFrame_refresh (s := s) (r := r)
        (u := bump .staleExpiries (s.heardExpire r)) [.staleExpiries] (by decide) (by simp) (by simp) rfl (by simp)
      refine ⟨_, exec_fromPeer hh hpeer (by decide) happly (.inr (s.heardExpire_own r)), hheard, ?_, ⟨?_, ?_, ?_⟩, ?_,
        hcounts _ List.mem_cons_self, hkept, hloads⟩ <;> simp [id, target, renewed]
    case again =>
      have hempty : ((s.heardExpire r).out.slot (.expire target)).entry = none := OutList.withdraw_slot hpending
      rw [applyExpire_stale (s := s.heardExpire r) _ hno, hpending,
        staleExpire_of_withdrawn (s := s.heardExpire r) hh.takesPart htarget hempty] at happly
      obtain ⟨hheard, hcounts, hkept, hloads⟩ := heardFrame_refresh (s := s) (r := r)
        (u := (bump .staleExpiries (s.heardExpire r)).setOut ((s.heardExpire r).listPostedAgain target))
        [.staleExpiries] (by decide) (by simp) (by simp) rfl (by simp)
      refine ⟨_, exec_fromPeer hh hpeer (by decide) happly (.inr (s.heardExpire_own r)), hheard, ?_, ?_, ?_, ?_,
        hcounts _ List.mem_cons_self, hkept, hloads, hempty,
        fun p hp hl => State.listPostedAgain_of_runOut (s := s.heardExpire r) hp hl,
        State.listPostedAgain_of_not (s := s.heardExpire r)⟩ <;> simp [renewed, id]
  case others =>
    intro s r hh hwait id renewed
    refine ⟨fun hpeer => ?leave, fun hpeer => ?release⟩
    case leave =>
      obtain ⟨hheard, -, hkept, hloads⟩ := heardFrame_refresh (s := s) (r := r)
        (u := removePeer id 2 (s.heardRenewed r)) [] (by decide)
        (by simp [removePeer_eq]) (by simp [removePeer_eq]) (by simp [removePeer_eq, bumps]) (by simp)
      refine ⟨_, exec_fromPeer hh hpeer (by decide) (applyHeard_leave s r) (.inl hwait), hheard, ?_, ⟨?_, ?_, ?_⟩, ?_,
        hkept, hloads⟩ <;> simp [removePeer_eq, id, renewed]
    case release =>
      obtain ⟨hheard, -, hkept, hloads⟩ := heardFrame_refresh (s := s) (r := r)
        (u := (s.heardRenewed r).setTable ((renewed.giveUp id).scan s.cfg)) [] (by decide) (by simp) (by simp)
        (by simp [bumps]) (by simp)
      refine ⟨_, exec_fromPeer hh hpeer (by decide) (applyHeard_release s r) (.inl hwait), hheard, ?_, ⟨?_, ?_, ?_⟩, ?_,
        hkept, hloads⟩ <;> simp [id, renewed]

end Sys2Proof.Machine
end

section
/-! SUPPORT. What a STANDING carries (R57, R201), the findings of a heard frame (R42 to R45, R52, R57 to R60), and the
statement about them. -/

namespace Sys2Proof.Machine

/-! ## What a STANDING carries (R57, R201) -/

/-- The budgets a payload carries are the bank's (R55, R58, R59). -/
def Payload.SameBudgets (c : Settings) (p : Payload) : Prop :=
  p.p0 = c.powerBudget ∧ p.p1 = c.ventBudget ∧ p.p2 = c.fillBudget

theorem sameBudgets_iff (c : Settings) (p : Payload) : sameBudgets c p = true ↔ p.SameBudgets c := by
  simp [sameBudgets, Payload.SameBudgets, and_assoc]

theorem sameBudgets_of {c : Settings} {p : Payload} (h : p.SameBudgets c) : sameBudgets c p = true :=
  (sameBudgets_iff c p).mpr h

theorem sameBudgets_of_not {c : Settings} {p : Payload} (h : ¬ p.SameBudgets c) : sameBudgets c p = false :=
  Bool.eq_false_iff.mpr fun e => h ((sameBudgets_iff c p).mp e)

/-- The fields no STANDING may carry (R57, R201, log 39). -/
def StandingFields.Malformed (f : StandingFields) : Prop :=
  f.standing = 3 ∨ (f.standing = 2 ∧ f.position = 0) ∨ 63 < f.power ∨ 1 < f.fill ∨ (f.standing ≠ 0 ∧ f.kind = 0)

/-- Five bits carry at most 31 vent units (R201). -/
theorem Payload.standingFields_vent (p : Payload) : p.standingFields.vent ≤ 31 := by
  have h := p.p5.isLt
  simp only [Payload.standingFields]
  omega

theorem Payload.malformed_iff (p : Payload) : p.standingFields.malformed = true ↔ p.standingFields.Malformed := by
  have hvent : ¬ 31 < p.standingFields.vent := Nat.not_lt.mpr p.standingFields_vent
  simp [StandingFields.malformed, StandingFields.Malformed, hvent, or_assoc]

/-- A STANDING of an ABSENT sender with the bank's budgets that reports NONE and nothing malformed is no surprise
(R59). -/
theorem Payload.plain_iff (p : Payload) :
    (p.standingFields.standing = 0 ∧ ¬ p.standingFields.malformed) ↔
      ¬ (p.standingFields.standing ≠ 0 ∨ p.standingFields.Malformed) := by
  rw [p.malformed_iff]
  tauto

/-! ## A STANDING of an ABSENT sender (R59, R60) -/

section
variable {f : Frame} {s : State}

theorem standingUnknown_foreign (h : ¬ f.payload.SameBudgets s.cfg) : standingUnknown f s =
    if s.control.station = .gathering then (s, some .budget)
    else (budgetRejected .standing f.sender.toNat f.payload s, none) := by
  simp [standingUnknown, sameBudgets_of_not h]

variable (h : f.payload.SameBudgets s.cfg)
include h

theorem standingUnknown_plain (h0 : f.payload.standingFields.standing = 0)
    (hm : ¬ f.payload.standingFields.Malformed) :
    standingUnknown f s = (addPeer .standing f.sender.toNat f.seq .none s, none) := by
  have hplain := f.payload.plain_iff.mpr (by tauto)
  simp only [standingUnknown, sameBudgets_of h]
  exact if_pos hplain

theorem standingUnknown_surprise (hc : f.payload.standingFields.standing ≠ 0 ∨ f.payload.standingFields.Malformed) :
    standingUnknown f s = if s.control.station = .gathering then
      (if f.payload.standingFields.malformed then (s, some .inconsistent) else addGathered f s)
      else (s, some .unknownSender) := by
  simp only [standingUnknown, sameBudgets_of h]
  exact if_neg fun e => f.payload.plain_iff.mp e hc

theorem standingUnknown_unknownSender (hs : s.control.station ≠ .gathering)
    (hc : f.payload.standingFields.standing ≠ 0 ∨ f.payload.standingFields.Malformed) :
    standingUnknown f s = (s, some .unknownSender) := by
  rw [standingUnknown_surprise h hc, if_neg hs]

theorem standingUnknown_gathered (hs : s.control.station = .gathering)
    (h0 : f.payload.standingFields.standing ≠ 0) (hm : ¬ f.payload.standingFields.Malformed) :
    standingUnknown f s = addGathered f s := by
  rw [standingUnknown_surprise h (.inl h0), if_pos hs, if_neg (by rwa [f.payload.malformed_iff])]

end

/-- Reported amounts of an ADMITTED sender that do not fit are INCONSISTENT (R60). -/
theorem addGathered_not_fits {f : Frame} {s : State} (h1 : f.payload.standingFields.standing = 1)
    (hf : ∀ k, s.table.fits s.cfg ⟨f.payload.standingFields.power, f.payload.standingFields.vent,
      f.payload.standingFields.fill, k⟩ = false) : addGathered f s = (s, some .inconsistent) := by
  cases hk : PhaseKind.ofCode? f.payload.standingFields.kind with
  | none => simp [addGathered, hk]
  | some k => simp [addGathered, hk, h1, hf k]

theorem standingUnknown_inconsistent {f : Frame} {s : State} (h : f.payload.SameBudgets s.cfg)
    (hs : s.control.station = .gathering) (hc : f.payload.standingFields.Malformed ∨
      (f.payload.standingFields.standing = 1 ∧ ∀ k, s.table.fits s.cfg ⟨f.payload.standingFields.power,
        f.payload.standingFields.vent, f.payload.standingFields.fill, k⟩ = false)) :
    standingUnknown f s = (s, some .inconsistent) := by
  by_cases hm : f.payload.standingFields.Malformed
  · rw [standingUnknown_surprise h (.inr hm), if_pos hs, if_pos (f.payload.malformed_iff.mpr hm)]
  · obtain ⟨h1, hf⟩ := hc.resolve_left hm
    rw [standingUnknown_gathered h hs (by omega) hm, addGathered_not_fits h1 hf]

/-- Foreign budgets of a PRESENT sender are a finding while GATHERING (R58). -/
theorem standingKnown_budget {f : Frame} {s : State} (h : ¬ f.payload.SameBudgets s.cfg)
    (hs : s.control.station = .gathering) : standingKnown f s = (s, some .budget) := by
  simp [standingKnown, sameBudgets_of_not h, hs]

theorem applyHeard_standing (s : State) (r : Reading) : applyHeard (r.frame .standing) (s.afterHearing r) =
    standingKnown (r.frame .standing) (s.heardRenewed r) := rfl

/-! ## What a finding brings (R42) -/

theorem onFinding_resync {f : Cause} {s : State} (hf : f = .unknownSender ∨ f = .sequenceGap ∨ f = .selfExpired)
    (h : s.control.station = .member) : onFinding f s = resync f s := by
  unfold onFinding
  rcases hf with rfl | rfl | rfl <;> simp [h]

theorem onFinding_restarts {f : Cause} {s : State} (h1 : f ≠ .duplicate) (h2 : f ≠ .budget)
    (h : s.control.station = .gathering) : onFinding f s = restartGathering f s := by
  simp [onFinding, h, h1, h2]

theorem onFinding_duplicate {s : State} (h : s.control.station = .member ∨ s.control.station = .gathering) :
    onFinding .duplicate s = isolate .duplicate s := by
  unfold onFinding
  rcases h with h | h <;> simp [h]

theorem onFinding_budget {s : State} (h : s.control.station = .gathering) :
    onFinding .budget s = isolate .budget s := by
  simp [onFinding, h]

theorem onFinding_leaving (f : Cause) {s : State} (h : s.control.station = .leaving) : onFinding f s = s := by
  simp [onFinding, h]

/-! ## The rows of a frame that makes a finding -/

section
variable {s : State} {r : Reading} (hh : Hearing s)
include hh

theorem exec_heard_finding {k : FrameKind} {c : Cause} (hf : r.finding k.code = false) {t : State}
    (hcore : takeHeardCore (r.frame k) (s.afterHearing r) = (t, some c)) :
    exec (k.row r) s = .next (refresh (onFinding c t)) := by
  rw [exec_heardFrame hh hf, takeHeard_of_finding hcore]

variable (hf : r.finding FrameKind.standing.code = false) (h0 : r.sender.toNat ≠ 0) (hown : r.sender.toNat ≠ s.ownId)
include hf h0 hown

/-- The row of a STANDING of an ABSENT sender that makes a finding (R59, R60). -/
theorem exec_standingUnknown_finding {c : Cause} (hr : s.table.rec? r.sender.toNat = none)
    (h : standingUnknown (r.frame .standing) (s.afterHearing r) = (s.afterHearing r, some c)) :
    exec (.standing r) s = .next (refresh (onFinding c (s.afterHearing r))) :=
  exec_heard_finding (k := .standing) hh hf
    ((takeHeardCore_standingUnknown (f := r.frame .standing) (s := s.afterHearing r) hown h0 rfl hr).trans h)

theorem exec_standing_foreign_absent (hr : s.table.rec? r.sender.toNat = none) (hb : ¬ r.payload.SameBudgets s.cfg)
    (hs : s.control.station = .gathering) :
    exec (.standing r) s = .next (refresh (onFinding .budget (s.afterHearing r))) :=
  exec_standingUnknown_finding hh hf h0 hown hr
    ((standingUnknown_foreign (f := r.frame .standing) (s := s.afterHearing r) hb).trans (if_pos hs))

theorem exec_standing_foreign_present {p : Rec} (hr : s.table.rec? r.sender.toNat = some p) (hq : r.seq = p.seq + 1)
    (hb : ¬ r.payload.SameBudgets s.cfg) (hs : s.control.station = .gathering) :
    exec (.standing r) s = .next (refresh (onFinding .budget (s.heardRenewed r))) :=
  exec_fromPeer_finding (k := .standing) hh ⟨hf, h0, hown, p, hr, hq⟩ (by decide)
    ((applyHeard_standing s r).trans (standingKnown_budget (f := r.frame .standing) (s := s.heardRenewed r) hb hs))

theorem exec_standing_surprise (hr : s.table.rec? r.sender.toNat = none) (hb : r.payload.SameBudgets s.cfg)
    (hc : r.payload.standingFields.standing ≠ 0 ∨ r.payload.standingFields.Malformed)
    (hs : s.control.station ≠ .gathering) :
    exec (.standing r) s = .next (refresh (onFinding .unknownSender (s.afterHearing r))) :=
  exec_standingUnknown_finding hh hf h0 hown hr
    (standingUnknown_unknownSender (f := r.frame .standing) (s := s.afterHearing r) hb hs hc)

theorem exec_standing_inconsistent (hr : s.table.rec? r.sender.toNat = none) (hb : r.payload.SameBudgets s.cfg)
    (hs : s.control.station = .gathering) (hc : r.payload.standingFields.Malformed ∨
      (r.payload.standingFields.standing = 1 ∧ ∀ k, s.table.fits s.cfg ⟨r.payload.standingFields.power,
        r.payload.standingFields.vent, r.payload.standingFields.fill, k⟩ = false)) :
    exec (.standing r) s = .next (refresh (onFinding .inconsistent (s.afterHearing r))) :=
  exec_standingUnknown_finding hh hf h0 hown hr
    (standingUnknown_inconsistent (f := r.frame .standing) (s := s.afterHearing r) hb hs hc)

end

/-- The rows of the six kinds (R21). -/
theorem FrameKind.eq_row_of_mem {k : FrameKind} {row : Instr} {r : Reading}
    (h : (k, row) ∈ [(FrameKind.expire, Instr.expire r), (.leave, .leave r), (.release, .release r), (.claim, .claim r),
      (.rollcall, .rollcall r), (.standing, .standing r)]) : row = k.row r := by
  simp only [List.mem_cons, Prod.mk.injEq, List.not_mem_nil, or_false] at h
  rcases h with ⟨rfl, rfl⟩ | ⟨rfl, rfl⟩ | ⟨rfl, rfl⟩ | ⟨rfl, rfl⟩ | ⟨rfl, rfl⟩ | ⟨rfl, rfl⟩ <;> rfl

/-- Settles O39: the tests in their order, the two kinds that make findings of their own, and what Station Control makes
of each finding. -/
theorem heardFramesAreTested : Obligations.HeardFramesAreTested := by
  unfold Obligations.HeardFramesAreTested
  intro s r hh u id c renewed equal malformed
  refine ⟨fun k row hrow hf => ?tests, fun own hpeer htarget hrec hseq => ?selfExpired, fun hf h0 hown => ?standing,
    fun v => ⟨fun f => onFinding_resync, fun f => onFinding_restarts, onFinding_duplicate, onFinding_budget,
      fun f => onFinding_leaving f⟩⟩
  case tests =>
    rw [FrameKind.eq_row_of_mem hrow]
    refine ⟨fun hown => ?_, fun hown h0 => ?_, fun hown h0 hr hroll hstand => ?_, fun p hown h0 hr hroll hq => ?_⟩
    · exact exec_heard_finding hh hf (takeHeardCore_duplicate (f := r.frame k) (s := u) hown)
    · rw [exec_heardFrame hh hf, takeHeard_of_effect (takeHeardCore_zero (f := r.frame k) (s := u) hown h0) (.inr rfl)]
    · exact exec_heard_finding hh hf
        (takeHeardCore_unknownSender (f := r.frame k) (s := u) hown h0 hroll hstand hr)
    · exact exec_heard_finding hh hf (takeHeardCore_sequenceGap (f := r.frame k) (s := u) hown h0 hroll hr hq)
  case selfExpired =>
    have ⟨_, _, hother, _⟩ := hpeer
    have hown : (s.heardExpire r).table.rec? s.ownId = some own := by
      rw [State.heardExpire_table, Table.rec?_renew, if_neg (Ne.symm hother), hrec]
    have hexpired := applyExpire_selfExpired (s := s.heardExpire r)
      ((s.out.withdraw r.sender.toNat).expirePending s.ownId) hown hseq
    have happly := applyHeard_expire s r
    rw [htarget] at happly
    have hrow := exec_fromPeer_finding hh hpeer (by decide) (happly.trans hexpired)
    rw [State.heardExpire, htarget] at hrow
    exact hrow
  case standing =>
    exact ⟨exec_standing_foreign_absent hh hf h0 hown, fun p => exec_standing_foreign_present hh hf h0 hown,
      exec_standing_surprise hh hf h0 hown, exec_standing_inconsistent hh hf h0 hown⟩

end Sys2Proof.Machine
end

section
/-! SUPPORT. A ROLLCALL of a peer (R55, R56, R61), and the statement about it. -/

namespace Sys2Proof.Machine

/-! ## The sender's record (R55) -/

section
variable {f : Frame} {s : State}

theorem rollcallPeer_added (hr : s.table.rec? f.sender.toNat = none) (h : f.payload.SameBudgets s.cfg) :
    rollcallPeer f s = addPeer .rollcall f.sender.toNat f.seq .none s := by
  simp [rollcallPeer, hr, sameBudgets_of h]

theorem rollcallPeer_rejected (hr : s.table.rec? f.sender.toNat = none) (h : ¬ f.payload.SameBudgets s.cfg) :
    rollcallPeer f s = budgetRejected .rollcall f.sender.toNat f.payload s := by
  simp [rollcallPeer, hr, sameBudgets_of_not h]

theorem rollcallPeer_reset {p : Rec} (hr : s.table.rec? f.sender.toNat = some p) (h : f.payload.SameBudgets s.cfg) :
    rollcallPeer f s = s.setTable
      (((s.table.renew f.sender.toNat f.seq s.cfg.leaseTicks).giveUp f.sender.toNat).scan s.cfg) := by
  simp [rollcallPeer, hr, sameBudgets_of h]

theorem rollcallPeer_removed {p : Rec} (hr : s.table.rec? f.sender.toNat = some p)
    (h : ¬ f.payload.SameBudgets s.cfg) : rollcallPeer f s =
      removePeer f.sender.toNat 3 (budgetRejected .rollcall f.sender.toNat f.payload s) := by
  simp [rollcallPeer, hr, sameBudgets_of_not h]

end

/-- A peer added leaves every other record's content (R55, R59, R60). -/
theorem addPeer_own {k : FrameKind} {id : Nat} {q : Byte} {h : Holding} {s : State} (hid : id ≠ s.ownId) :
    (addPeer k id q h s).own = s.own := by
  have hrec : (s.table.add id q s.cfg.leaseTicks h).rec? s.ownId = s.table.rec? s.ownId := by
    rw [Table.add, Table.rec?_put, if_neg fun e => hid e.1.symm]
  have hholding : (addPeer k id q h s).own = (s.table.add id q s.cfg.leaseTicks h).holding s.ownId := rfl
  rw [hholding, State.own, Table.holding, Table.holding, hrec]

/-! ## The window (R56, R61) -/

/-- The table with the window open and its 24 slots to run (R61). -/
def Table.opened (t : Table) (rate : Byte) : Table :=
  { t with windowOpen := true, windowTimer := .running (2112 * bitTicks rate) }

/-- The row of a peer's ROLLCALL, from what it makes of the sender's record: the window opens, and a MEMBER posts a
STANDING (R55, R56). `cs` are the counts the sender's record brought. -/
theorem exec_rollcallPeer {s v : State} {r : Reading} {cs : List Counter} (hh : Hearing s)
    (hf : r.finding FrameKind.rollcall.code = false) (h0 : r.sender.toNat ≠ 0) (hown : r.sender.toNat ≠ s.ownId)
    (hpeer : rollcallPeer (r.frame .rollcall) (s.afterHearing r) = v)
    (hwait : s.own.isWaiting = false ∨ v.own = s.own) (hnodup : (.framesApplied :: cs).Nodup)
    (hline : v.line = (s.afterHearing r).line) (hcontrol : v.control = (s.afterHearing r).control)
    (hout : v.out = s.out)
    (hcounters : v.port.counters = (bumps cs (s.afterHearing r)).port.counters) :
    ∃ t, exec (.rollcall r) s = .next t ∧ HeardFrame r s t ∧ t.engine = s.engine ∧ t.fault = s.fault ∧
      t.out = (if s.control.station = .member then (s.out.withdraw r.sender.toNat).post .standing .standing
        else s.out.withdraw r.sender.toNat) ∧
      LoadsFollow s t ∧ t.table = v.table.opened s.line.rate ∧ t.port.ring = v.port.ring ∧
      (∀ c ∈ cs, t.counter c = satInc (s.counter c)) ∧ KeepsCounters (.framesApplied :: cs) s t := by
  have houtside : v.outside = s.outside := by rw [← hpeer, rollcallPeer_outside]; rfl
  have hside : v.engineSide = s.engineSide := by rw [← hpeer, rollcallPeer_engineSide]; rfl
  obtain ⟨hengine, hfault⟩ := Prod.mk.inj hside
  have hopen := openWindow_eq (withdraw r.sender.toNat v)
  have hcore := takeHeardCore_rollcall (f := r.frame .rollcall) (s := s.afterHearing r) hown h0 rfl
  rw [hpeer] at hcore
  have hwaits : s.own.isWaiting = false ∨ (openWindow (withdraw r.sender.toNat v)).own = s.own := by
    have hkept : (openWindow (withdraw r.sender.toNat v)).own = v.own := by rw [hopen]; rfl
    rw [hkept]
    exact hwait
  have hexec : exec (.rollcall r) s = .next (refresh (openWindow (withdraw r.sender.toNat v))) := by
    have hrow := exec_heardFrame (k := .rollcall) hh hf
    rw [takeHeard_of_effect hcore hwaits] at hrow
    exact hrow
  obtain ⟨hheard, hcounts, hkeeps, hloads⟩ := heardFrame_refresh (s := s) (r := r)
    (u := openWindow (withdraw r.sender.toNat v)) cs hnodup (by rw [hopen]; exact hline) (by rw [hopen]; exact hcontrol)
    (by rw [hopen]; exact hcounters) (by simp [houtside])
  refine ⟨_, hexec, hheard, ?_, ?_, ?_, hloads, ?_, ?_, hcounts, hkeeps⟩
  · rw [hopen]; exact hengine
  · rw [hopen]; exact hfault
  · rw [hopen]; simp [withdraw, hcontrol, hout]
  · rw [hopen]; simp [withdraw, hline, Line.frameEnded, Table.opened]
  · rw [hopen]; rfl

/-- Settles O45: the sender's record in its four cases, and then the window. -/
theorem rollcallResetsItsSender : Obligations.RollcallResetsItsSender := by
  unfold Obligations.RollcallResetsItsSender
  intro s r hh hpresent hf h0 hown id equal opened rejected
  cases hr : s.table.rec? id with
  | none =>
    by_cases hb : r.payload.SameBudgets s.cfg
    · obtain ⟨t, hexec, hheard, hengine, hfault, hout, hloads, htable, hring, -, hkept⟩ := exec_rollcallPeer
        (cs := []) hh hf h0 hown (rollcallPeer_added hr hb) (.inr (addPeer_own hown)) (by decide) rfl rfl rfl rfl
      exact ⟨t, hexec, hheard, hengine, hfault, hout, hloads, fun _ _ => ⟨htable, hring, hkept⟩,
        fun _ hne => absurd hb hne, fun p hp => by simp at hp, fun p hp => by simp at hp⟩
    · obtain ⟨t, hexec, hheard, hengine, hfault, hout, hloads, htable, hring, hcounts, hkept⟩ := exec_rollcallPeer
        (cs := [.budgetRejections]) hh hf h0 hown (rollcallPeer_rejected hr hb) (.inr rfl) (by decide) rfl rfl rfl rfl
      exact ⟨t, hexec, hheard, hengine, hfault, hout, hloads, fun _ he => absurd he hb,
        fun _ _ => ⟨htable, hring, hcounts _ List.mem_cons_self, hkept⟩, fun p hp => by simp at hp,
        fun p hp => by simp at hp⟩
  | some p =>
    have hwait : s.own.isWaiting = false := hpresent (by simp [id, hr])
    by_cases hb : r.payload.SameBudgets s.cfg
    · obtain ⟨t, hexec, hheard, hengine, hfault, hout, hloads, htable, hring, -, hkept⟩ := exec_rollcallPeer
        (cs := []) hh hf h0 hown (rollcallPeer_reset hr hb) (.inl hwait) (by decide) rfl rfl rfl rfl
      exact ⟨t, hexec, hheard, hengine, hfault, hout, hloads, fun hn => by simp at hn, fun hn => by simp at hn,
        fun _ _ _ => ⟨htable, hring, hkept⟩, fun _ _ hne => absurd hb hne⟩
    · obtain ⟨t, hexec, hheard, hengine, hfault, hout, hloads, htable, hring, hcounts, hkept⟩ := exec_rollcallPeer
        (cs := [.budgetRejections]) hh hf h0 hown (rollcallPeer_removed hr hb) (.inl hwait) (by decide)
        (by simp [removePeer_eq, budgetRejected]) (by simp [removePeer_eq, budgetRejected])
        (by simp [removePeer_eq, budgetRejected]) (by simp [removePeer_eq, budgetRejected, bumps])
      have hremoved : (removePeer id 3 (budgetRejected .rollcall id r.payload (s.afterHearing r))).table =
          (s.table.remove id).scan s.cfg := by simp [removePeer_eq, budgetRejected]
      have hleft : t.table = opened ((s.table.remove id).scan s.cfg) :=
        htable.trans (congrArg (Table.opened · s.line.rate) hremoved)
      exact ⟨t, hexec, hheard, hengine, hfault, hout, hloads, fun hn => by simp at hn, fun hn => by simp at hn,
        fun _ _ he => absurd he hb, fun _ _ _ => ⟨hleft, hring, hcounts _ List.mem_cons_self, hkept⟩⟩

end Sys2Proof.Machine
end

section
/-! SUPPORT. A STANDING of a peer (R57 to R60): the comparison with the record, the additions while GATHERING and
MEMBER, and the statement about it. -/

namespace Sys2Proof.Machine

/-! ## The comparison (R58) -/

/-- What a STANDING that reports this content carries: standing, power, vent, fill and kind (R26, R201). -/
def Holding.reported : Holding → Nat × Nat × Nat × Nat × Nat
  | .none => (0, 0, 0, 0, 0)
  | .admitted a => (1, a.power, a.vent, a.fill, a.kind.code)
  | .waiting a _ => (2, a.power, a.vent, a.fill, a.kind.code)

/-- The fields are malformed or differ from a record's content at a queue position (R58). -/
def StandingFields.Differs (f : StandingFields) (h : Holding) (position : Nat) : Prop :=
  f.Malformed ∨ (f.standing, f.power, f.vent, f.fill, f.kind) ≠ h.reported ∨ (f.standing = 2 ∧ f.position ≠ position)

theorem Payload.disagrees_iff (p : Payload) (h : Holding) (position : Nat) :
    disagrees p.standingFields h position = true ↔ p.standingFields.Differs h position := by
  have hreported : h.reported = ((StandingFields.ofHolding h position).standing,
      (StandingFields.ofHolding h position).power, (StandingFields.ofHolding h position).vent,
      (StandingFields.ofHolding h position).fill, (StandingFields.ofHolding h position).kind) := by
    cases h <;> rfl
  unfold StandingFields.Differs
  rw [hreported, ← p.malformed_iff]
  simp only [disagrees, Bool.or_eq_true, Bool.and_eq_true, bne_iff_ne, beq_iff_eq, ne_eq, Prod.mk.injEq]
  tauto

/-- The state in which a known sender's STANDING is compared: foreign budgets are counted and reported before it
(R58). -/
def State.CountsBudgets (s : State) (f : Frame) (v : State) : Prop :=
  (f.payload.SameBudgets s.cfg ∧ v = s) ∨
    (¬ f.payload.SameBudgets s.cfg ∧ s.control.station ≠ .gathering ∧
      v = budgetRejected .standing f.sender.toNat f.payload s)

section
variable {f : Frame} {s v : State} (h : s.CountsBudgets f v)
include h

/-- Content that agrees with the record brings nothing more (R58). -/
theorem standingKnown_agrees (hd : ¬ f.payload.standingFields.Differs (s.table.holding f.sender.toNat)
    (queuePos s.table.queue f.sender.toNat)) : standingKnown f s = (v, none) := by
  have hd := mt (f.payload.disagrees_iff _ _).mp hd
  rcases h with ⟨hb, rfl⟩ | ⟨hb, hs, rfl⟩
  · simp [standingKnown, sameBudgets_of hb, hd]
  · simp [standingKnown, sameBudgets_of_not hb, hs, budgetRejected, hd]

/-- Content that is malformed or differs from the record is counted and reported (R58). -/
theorem standingKnown_differs (hd : f.payload.standingFields.Differs (s.table.holding f.sender.toNat)
    (queuePos s.table.queue f.sender.toNat)) : standingKnown f s =
      (emit .standingDisagrees f.sender.toNat f.payload.standingFields.standing f.payload.standingFields.position
        (s.table.holding f.sender.toNat).code (queuePos s.table.queue f.sender.toNat)
        (bump .disagreements v), none) := by
  have hd := (f.payload.disagrees_iff _ _).mpr hd
  rcases h with ⟨hb, rfl⟩ | ⟨hb, hs, rfl⟩
  · simp [standingKnown, sameBudgets_of hb, hd]
  · simp [standingKnown, sameBudgets_of_not hb, hs, budgetRejected, hd]

end

/-! ## The additions (R59, R60) -/

/-- A queued id stays before a newcomer as long as gathered positions say so: the newcomer stands before the first id
whose gathered position is greater or absent (R60). -/
theorem Table.insertGathered_spec (t : Table) (id pos : Nat) : ∀ q : List Nat, ∃ before after,
    t.insertGathered id pos q = before ++ id :: after ∧ q = before ++ after ∧
      (∀ j ∈ before, ∃ g, t.gathered? j = some g ∧ g ≤ pos) ∧
      (∀ j, after.head? = some j → ∀ g, t.gathered? j = some g → pos < g)
  | [] => ⟨[], [], rfl, rfl, by simp, by simp⟩
  | x :: xs => by
    have here : t.insertGathered id pos (x :: xs) = id :: x :: xs → (∀ g, t.gathered? x = some g → pos < g) →
        ∃ before after, t.insertGathered id pos (x :: xs) = before ++ id :: after ∧ x :: xs = before ++ after ∧
          (∀ j ∈ before, ∃ g, t.gathered? j = some g ∧ g ≤ pos) ∧
          (∀ j, after.head? = some j → ∀ g, t.gathered? j = some g → pos < g) := by
      intro heq hgreater
      refine ⟨[], x :: xs, heq, rfl, by simp, fun j hj => ?_⟩
      rw [← Option.some.inj hj]
      exact hgreater
    cases hx : t.gathered? x with
    | none => exact here (by simp [Table.insertGathered, hx]) (by simp [hx])
    | some g =>
      by_cases hlt : pos < g
      · exact here (by simp [Table.insertGathered, hx, hlt]) fun g' hg' => by rw [hx] at hg'; cases hg'; exact hlt
      · obtain ⟨before, after, hinsert, hq, hbefore, hafter⟩ := t.insertGathered_spec id pos xs
        refine ⟨x :: before, after, by simp [Table.insertGathered, hx, hlt, hinsert], by simp [hq], ?_, hafter⟩
        intro j hj
        rcases List.mem_cons.mp hj with rfl | hj
        · exact ⟨g, hx, Nat.le_of_not_lt hlt⟩
        · exact hbefore j hj

section
variable {f : Frame} {s : State} {k : PhaseKind} (hk : k.code = f.payload.standingFields.kind)
include hk

/-- While GATHERING an ADMITTED sender is added if its amounts fit (R60). -/
theorem addGathered_admitted (h1 : f.payload.standingFields.standing = 1)
    (hf : s.table.fits s.cfg ⟨f.payload.standingFields.power, f.payload.standingFields.vent,
      f.payload.standingFields.fill, k⟩ = true) :
    addGathered f s = (addPeer .standing f.sender.toNat f.seq (.admitted ⟨f.payload.standingFields.power,
      f.payload.standingFields.vent, f.payload.standingFields.fill, k⟩) s, none) := by
  have hkind := (PhaseKind.ofCode?_eq_some_iff _ k).mpr hk
  simp [addGathered, hkind, h1, hf]

/-- While GATHERING a WAITING sender is added and placed by its position (R60). -/
theorem addGathered_waiting (h2 : f.payload.standingFields.standing = 2) :
    let a : Share := ⟨f.payload.standingFields.power, f.payload.standingFields.vent, f.payload.standingFields.fill, k⟩
    let v := addPeer .standing f.sender.toNat f.seq (.waiting a (some f.payload.standingFields.position)) s
    addGathered f s = (v.setTable { v.table with
      queue := v.table.insertGathered f.sender.toNat f.payload.standingFields.position v.table.queue }, none) := by
  have hkind := (PhaseKind.ofCode?_eq_some_iff _ k).mpr hk
  simp [addGathered, hkind, h2]

end

/-! ## The rows -/

section
variable {s v : State} {r : Reading} (hh : Hearing s) (hf : r.finding FrameKind.standing.code = false)
  (h0 : r.sender.toNat ≠ 0) (hown : r.sender.toNat ≠ s.ownId)
include hh hf h0 hown

/-- The row of a STANDING of an ABSENT sender that makes no finding (R59, R60). -/
theorem exec_standingUnknown (hr : s.table.rec? r.sender.toNat = none)
    (h : standingUnknown (r.frame .standing) (s.afterHearing r) = (v, none)) (hv : v.own = s.own) :
    exec (.standing r) s = .next (refresh v) := by
  have hrow := exec_heardFrame (k := .standing) hh hf
  rw [takeHeard_of_effect ((takeHeardCore_standingUnknown (f := r.frame .standing) (s := s.afterHearing r) hown h0 rfl
    hr).trans h) (.inr hv)] at hrow
  exact hrow

/-- The row of a STANDING that adds its sender (R59, R60). -/
theorem exec_standing_added {h : Holding} (hr : s.table.rec? r.sender.toNat = none)
    (hu : standingUnknown (r.frame .standing) (s.afterHearing r) =
      (addPeer .standing r.sender.toNat r.seq h (s.afterHearing r), none)) :
    ∃ t, exec (.standing r) s = .next t ∧ HeardFrame r s t ∧
      t.table = s.table.put r.sender.toNat (some ⟨r.seq, .running s.cfg.leaseTicks, h⟩) ∧ KeepsEngineAndList [] s t ∧
      t.port.ring = s.port.ring.after .memberAdded r.sender.toNat 6 h.code 0 0 ∧ KeepsCounters [.framesApplied] s t ∧
      LoadsFollow s t := by
  obtain ⟨hheard, -, hkept, hloads⟩ := heardFrame_refresh (s := s) (r := r)
    (u := addPeer .standing r.sender.toNat r.seq h (s.afterHearing r)) [] (by decide) rfl rfl rfl rfl
  exact ⟨_, exec_standingUnknown hh hf h0 hown hr hu (addPeer_own (s := s.afterHearing r) hown), hheard, rfl,
    ⟨rfl, rfl, rfl⟩, rfl, hkept, hloads⟩

/-- The row of a STANDING that adds its sender to the queue by a position (R60). -/
theorem exec_standing_placed {a : Share} {pos : Nat} (hr : s.table.rec? r.sender.toNat = none)
    (hu : let v := addPeer .standing r.sender.toNat r.seq (.waiting a (some pos)) (s.afterHearing r)
      standingUnknown (r.frame .standing) (s.afterHearing r) =
        (v.setTable { v.table with queue := v.table.insertGathered r.sender.toNat pos v.table.queue }, none)) :
    let added := s.table.put r.sender.toNat (some ⟨r.seq, .running s.cfg.leaseTicks, .waiting a (some pos)⟩)
    ∃ t before after, exec (.standing r) s = .next t ∧ HeardFrame r s t ∧
      t.table = { added with queue := before ++ r.sender.toNat :: after } ∧ s.table.queue = before ++ after ∧
      (∀ j ∈ before, ∃ g, added.gathered? j = some g ∧ g ≤ pos) ∧
      (∀ j, after.head? = some j → ∀ g, added.gathered? j = some g → pos < g) ∧
      KeepsEngineAndList [] s t ∧ t.port.ring = s.port.ring.after .memberAdded r.sender.toNat 6 2 0 0 ∧
      KeepsCounters [.framesApplied] s t ∧ LoadsFollow s t := by
  intro added
  let v := addPeer .standing r.sender.toNat r.seq (.waiting a (some pos)) (s.afterHearing r)
  have hkeptOwn : v.own = s.own := addPeer_own (s := s.afterHearing r) hown
  have hqueue : added.queue = s.table.queue := Table.put_queue _ _ _
  obtain ⟨before, after, hinsert, hsplit, hbefore, hafter⟩ := added.insertGathered_spec r.sender.toNat pos added.queue
  obtain ⟨hheard, -, hkept, hloads⟩ := heardFrame_refresh (s := s) (r := r)
    (u := v.setTable { v.table with queue := v.table.insertGathered r.sender.toNat pos v.table.queue }) [] (by decide)
    rfl rfl rfl rfl
  refine ⟨_, before, after, exec_standingUnknown hh hf h0 hown hr hu hkeptOwn, hheard, ?_, hqueue.symm.trans hsplit,
    hbefore, hafter, ⟨rfl, rfl, rfl⟩, rfl, hkept, hloads⟩
  exact congrArg (fun q => ({ added with queue := q } : Table)) hinsert

end

/-- The row of a STANDING of a PRESENT sender that makes no finding: the record renewed, and what the comparison made of
the port (R45, R58). `cs` are the counts it brought. -/
theorem exec_standing_compared {s : State} {r : Reading} {port : Port} (cs : List Counter) (hh : Hearing s)
    (hpeer : FromPeer .standing r s)
    (hknown : standingKnown (r.frame .standing) (s.heardRenewed r) = ((s.heardRenewed r).setPort port, none))
    (hnodup : (.framesApplied :: cs).Nodup) (hcounters : port.counters = (bumps cs (s.afterHearing r)).port.counters)
    (houtside : ((s.heardRenewed r).setPort port).outside = s.outside) :
    ∃ t, exec (.standing r) s = .next t ∧ HeardFrame r s t ∧
      t.table = s.table.renew r.sender.toNat r.seq s.cfg.leaseTicks ∧ KeepsEngineAndList [r.sender.toNat] s t ∧
      LoadsFollow s t ∧ (∀ n ∈ cs, t.counter n = satInc (s.counter n)) ∧ t.port = port ∧
      KeepsCounters (.framesApplied :: cs) s t := by
  obtain ⟨hheard, hcounts, hkept, hloads⟩ := heardFrame_refresh (s := s) (r := r) cs hnodup
    (u := (s.heardRenewed r).setPort port) rfl rfl hcounters houtside
  exact ⟨_, exec_fromPeer hh hpeer (by decide) ((applyHeard_standing s r).trans hknown) (.inr (s.heardRenewed_own r)),
    hheard, rfl, ⟨rfl, rfl, rfl⟩, hloads, hcounts, rfl, hkept⟩

/-- The port after foreign budgets of a known sender, if it has any: with their event and their count (R58). -/
theorem countsBudgets_cases {s : State} {r : Reading} {before : Ring} {counted : List Counter}
    (h : (r.payload.SameBudgets s.cfg ∧ before = s.port.ring ∧ counted = []) ∨
      (¬ r.payload.SameBudgets s.cfg ∧ s.control.station ≠ .gathering ∧
        before = s.port.ring.after .budgetRejected r.sender.toNat 6 r.payload.p0.toNat r.payload.p1.toNat
          r.payload.p2.toNat ∧ counted = [.budgetRejections])) : ∃ port : Port,
      (s.heardRenewed r).CountsBudgets (r.frame .standing) ((s.heardRenewed r).setPort port) ∧ port.ring = before ∧
      port.counters = (bumps counted (s.afterHearing r)).port.counters ∧
      ((s.heardRenewed r).setPort port).outside = s.outside ∧
      (Counter.framesApplied :: counted).Nodup ∧ (Counter.framesApplied :: (counted ++ [.disagreements])).Nodup := by
  rcases h with ⟨hb, rfl, rfl⟩ | ⟨hb, hs, rfl, rfl⟩
  · exact ⟨(s.heardRenewed r).port, .inl ⟨hb, rfl⟩, rfl, rfl, rfl, by decide, by decide⟩
  · exact ⟨(budgetRejected .standing r.sender.toNat r.payload (s.heardRenewed r)).port, .inr ⟨hb, hs, rfl⟩, rfl, rfl,
      rfl, by decide, by decide⟩

/-- The port after a disagreement is counted and reported (R58). -/
def Port.disagreed (p : Port) (id : Nat) (c : StandingFields) (h : Holding) (position : Nat) : Port :=
  { p with
    ring := p.ring.after .standingDisagrees id c.standing c.position h.code position
    counters := p.counters.set (Counter.number .disagreements) (satInc p.counters[Counter.number .disagreements]) }

theorem disagreed_eq (s : State) (p : Port) (id : Nat) (c : StandingFields) (h : Holding) (position : Nat) :
    emit .standingDisagrees id c.standing c.position h.code position (bump .disagreements (s.setPort p)) =
      s.setPort (p.disagreed id c h position) := rfl

theorem Port.disagreed_counters {s : State} {p : Port} {cs : List Counter} (id : Nat) (c : StandingFields) (h : Holding)
    (position : Nat) (hcounters : p.counters = (bumps cs s).port.counters) :
    (p.disagreed id c h position).counters = (bumps (cs ++ [.disagreements]) s).port.counters := by
  rw [bumps_concat, bump_port_counters, ← hcounters]
  rfl

section
variable {s : State} {r : Reading} {p : Rec} {before : Ring} {counted : List Counter} (hh : Hearing s)
  (hf : r.finding FrameKind.standing.code = false) (h0 : r.sender.toNat ≠ 0) (hown : r.sender.toNat ≠ s.ownId)
  (hr : s.table.rec? r.sender.toNat = some p) (hq : r.seq = p.seq + 1)
  (hcase : (r.payload.SameBudgets s.cfg ∧ before = s.port.ring ∧ counted = []) ∨
    (¬ r.payload.SameBudgets s.cfg ∧ s.control.station ≠ .gathering ∧
      before = s.port.ring.after .budgetRejected r.sender.toNat 6 r.payload.p0.toNat r.payload.p1.toNat
        r.payload.p2.toNat ∧ counted = [.budgetRejections]))
include hh hf h0 hown hr hq hcase

/-- A known sender whose content agrees with its record (R58). -/
theorem exec_standing_agrees
    (hd : ¬ r.payload.standingFields.Differs p.holding (queuePos s.table.queue r.sender.toNat)) :
    ∃ t, exec (.standing r) s = .next t ∧ HeardFrame r s t ∧
      t.table = s.table.renew r.sender.toNat r.seq s.cfg.leaseTicks ∧ KeepsEngineAndList [r.sender.toNat] s t ∧
      LoadsFollow s t ∧ (∀ n ∈ counted, t.counter n = satInc (s.counter n)) ∧ t.port.ring = before ∧
      KeepsCounters (.framesApplied :: counted) s t := by
  have hpeer : FromPeer .standing r s := ⟨hf, h0, hown, p, hr, hq⟩
  obtain ⟨port, hv, rfl, hcounters, houtside, hnodup, -⟩ := countsBudgets_cases hcase
  rw [← Table.holding_of_rec hr, ← s.heardRenewed_holding r, ← s.heardRenewed_queue r] at hd
  obtain ⟨t, hexec, hheard, htable, hkeeps, hloads, hcounts, hport, hkept⟩ :=
    exec_standing_compared counted hh hpeer (standingKnown_agrees hv hd) hnodup hcounters houtside
  exact ⟨t, hexec, hheard, htable, hkeeps, hloads, hcounts, by rw [hport], hkept⟩

/-- A known sender whose content is malformed or differs from its record (R58). -/
theorem exec_standing_differs
    (hd : r.payload.standingFields.Differs p.holding (queuePos s.table.queue r.sender.toNat)) :
    ∃ t, exec (.standing r) s = .next t ∧ HeardFrame r s t ∧
      t.table = s.table.renew r.sender.toNat r.seq s.cfg.leaseTicks ∧ KeepsEngineAndList [r.sender.toNat] s t ∧
      LoadsFollow s t ∧ (∀ n ∈ counted, t.counter n = satInc (s.counter n)) ∧
      t.port.ring = before.after .standingDisagrees r.sender.toNat r.payload.standingFields.standing
        r.payload.standingFields.position p.holding.code (queuePos s.table.queue r.sender.toNat) ∧
      t.counter .disagreements = satInc (s.counter .disagreements) ∧
      KeepsCounters (.framesApplied :: .disagreements :: counted) s t := by
  have hpeer : FromPeer .standing r s := ⟨hf, h0, hown, p, hr, hq⟩
  obtain ⟨port, hv, rfl, hcounters, houtside, -, hnodup⟩ := countsBudgets_cases hcase
  rw [← Table.holding_of_rec hr, ← s.heardRenewed_holding r, ← s.heardRenewed_queue r] at hd ⊢
  have hknown := standingKnown_differs hv hd
  rw [disagreed_eq] at hknown
  obtain ⟨t, hexec, hheard, htable, hkeeps, hloads, hcounts, hport, hkept⟩ :=
    exec_standing_compared (counted ++ [.disagreements]) hh hpeer hknown hnodup
      (Port.disagreed_counters _ _ _ _ hcounters) houtside
  have hsub : (.framesApplied :: (counted ++ [.disagreements]) : List Counter) ⊆
      .framesApplied :: .disagreements :: counted :=
    List.cons_subset_cons _ (List.append_subset.mpr ⟨List.subset_cons_self _ _, by simp⟩)
  exact ⟨t, hexec, hheard, htable, hkeeps, hloads, fun n hn => hcounts n (List.mem_append_left _ hn),
    by rw [hport]; rfl, hcounts _ (by simp), keepsCounters_mono hsub hkept⟩

end

/-! ## The statement -/

/-- Settles O46: a known sender by the comparison, an unknown one by its budgets and its content, and the findings by
what Station Control makes of them. -/
theorem standingsCompareOrAdd : Obligations.StandingsCompareOrAdd := by
  unfold Obligations.StandingsCompareOrAdd
  intro s r hh hf h0 hown id c equal malformed differs carried added rejected
  have hdiffers : ∀ h, differs h ↔ c.Differs h (queuePos s.table.queue id) := by
    intro h
    cases h <;> exact Iff.rfl
  refine ⟨fun p before counted hr hq hcase => ?known, fun p hr hq hb hs => ?knownForeign, fun hr hb hs => ?rejected,
    fun hr hb hs => ?foreign, fun hr hb hnone hm => ?addPlain, fun hr hb hc hs => ?resync, fun hr hb hs hc => ?restart,
    fun k hr hb hs hm hk h1 hfits => ?addAdmitted, fun k hr hb hs hm hk h2 => ?addWaiting⟩
  case known =>
    by_cases hd : differs p.holding
    · obtain ⟨t, hexec, hheard, htable, hkeeps, hloads, hcounts, hdiffer⟩ :=
        exec_standing_differs hh hf h0 hown hr hq hcase ((hdiffers _).mp hd)
      exact ⟨t, hexec, hheard, htable, hkeeps, hloads, hcounts, fun hno => absurd hd hno, fun _ => hdiffer⟩
    · obtain ⟨t, hexec, hheard, htable, hkeeps, hloads, hcounts, hagree⟩ :=
        exec_standing_agrees hh hf h0 hown hr hq hcase (mt (hdiffers _).mpr hd)
      exact ⟨t, hexec, hheard, htable, hkeeps, hloads, hcounts, fun _ => hagree, fun hyes => absurd hyes hd⟩
  case knownForeign =>
    obtain ⟨hstation, hcause, -⟩ := isolate_entersIsolated .budget (s.heardRenewed r)
    refine ⟨_, exec_standing_foreign_present hh hf h0 hown hr hq hb hs, ?_⟩
    rw [onFinding_budget (s := s.heardRenewed r) hs]
    exact ⟨hstation, hcause⟩
  case rejected =>
    have hu : standingUnknown (r.frame .standing) (s.afterHearing r) =
        (budgetRejected .standing id r.payload (s.afterHearing r), none) :=
      (standingUnknown_foreign (f := r.frame .standing) (s := s.afterHearing r) hb).trans (if_neg hs)
    obtain ⟨hheard, hcounts, hkept, hloads⟩ := heardFrame_refresh (s := s) (r := r)
      (u := budgetRejected .standing id r.payload (s.afterHearing r)) [.budgetRejections] (by decide) rfl rfl rfl rfl
    exact ⟨_, exec_standingUnknown hh hf h0 hown hr hu rfl, hheard, rfl, ⟨rfl, rfl, rfl⟩, rfl,
      hcounts _ List.mem_cons_self, hkept, hloads⟩
  case foreign =>
    obtain ⟨hstation, hcause, -⟩ := isolate_entersIsolated .budget (s.afterHearing r)
    refine ⟨_, exec_standing_foreign_absent hh hf h0 hown hr hb hs, ?_⟩
    rw [onFinding_budget (s := s.afterHearing r) hs]
    exact ⟨hstation, hcause⟩
  case addPlain =>
    exact exec_standing_added hh hf h0 hown hr
      (standingUnknown_plain (f := r.frame .standing) (s := s.afterHearing r) hb hnone hm)
  case resync =>
    have hresync : onFinding .unknownSender (s.afterHearing r) = resync .unknownSender (s.afterHearing r) :=
      onFinding_resync (.inl rfl) hs
    refine ⟨_, exec_standing_surprise hh hf h0 hown hr hb hc (by rw [hs]; decide), ?_⟩
    rw [hresync, resync_eq]
    exact ⟨rfl, (counter_of_bump (s := s.afterHearing r) rfl).trans
      (congrArg satInc (s.afterHearing_counter r (by decide))), rfl, rfl⟩
  case restart =>
    have hrestart : onFinding .inconsistent (s.afterHearing r) = restartGathering .inconsistent (s.afterHearing r) :=
      onFinding_restarts (by decide) (by decide) hs
    refine ⟨_, exec_standing_inconsistent hh hf h0 hown hr hb hs hc, ?_⟩
    rw [hrestart, restartGathering_eq]
    exact ⟨rfl, (counter_of_bump (s := s.afterHearing r) rfl).trans
      (congrArg satInc (s.afterHearing_counter r (by decide))), rfl, rfl⟩
  case addAdmitted =>
    have hstanding : c.standing ≠ 0 := by omega
    exact exec_standing_added hh hf h0 hown hr
      ((standingUnknown_gathered (f := r.frame .standing) (s := s.afterHearing r) hb hs hstanding hm).trans
        (addGathered_admitted hk h1 hfits))
  case addWaiting =>
    have hstanding : c.standing ≠ 0 := by omega
    exact exec_standing_placed hh hf h0 hown hr
      ((standingUnknown_gathered (f := r.frame .standing) (s := s.afterHearing r) hb hs hstanding hm).trans
        (addGathered_waiting hk h2))

end Sys2Proof.Machine
end

section
/-! SUPPORT. The laws of the share table as one law of a table, a configuration and an own id (R39, R65, R74), and that
every operation on the records keeps it. -/

namespace Sys2Proof.Machine

/-- The pools are within the budgets, the queue holds exactly the WAITING ids, and the own record is PRESENT. -/
structure Table.Banked (t : Table) (c : Settings) (own : Nat) : Prop where
  within : t.Within c
  queue : QueueIsWaiting t
  present : (t.rec? own).isSome = true

/-! ## What the laws depend on -/

/-- The sums and the queue's law depend on what the records hold alone. -/
theorem Table.heldSum_of_holding {t u : Table} (h : ∀ id, u.holding id = t.holding id) (f : Share → Nat) :
    u.heldSum f = t.heldSum f := by
  have heldBy_rec : ∀ (v : Table) id, heldBy f (v.rec? id) = (v.holding id).held f := by
    intro v id
    unfold Table.holding
    cases v.rec? id <;> rfl
  simp only [Table.heldSum_eq, heldBy_rec, h]

theorem Table.heldSum_of_none {t : Table} (h : ∀ id, t.holding id = .none) (f : Share → Nat) : t.heldSum f = 0 := by
  have hreset : ∀ id, t.holding id = Table.reset.holding id := fun id => by rw [h, Table.holding, Table.reset_rec?]
  rw [Table.heldSum_of_holding hreset f]
  rfl

theorem Table.Within.of_holding {t u : Table} {c : Settings} (h : t.Within c)
    (hh : ∀ id, u.holding id = t.holding id) : u.Within c := by
  have hsum := Table.heldSum_of_holding hh
  obtain ⟨hpower, hvent, hfill⟩ := h
  exact ⟨by rwa [hsum], by rwa [hsum], by rwa [hsum]⟩

/-- Where the records hold as much, wait as before and stay PRESENT, the laws are kept. -/
theorem Table.Banked.of_waiting {t u : Table} {c : Settings} {own : Nat} (h : t.Banked c own) (hw : u.Within c)
    (hqueue : u.queue = t.queue) (hwait : ∀ id, (u.holding id).isWaiting = (t.holding id).isWaiting)
    (hpresent : (u.rec? own).isSome = (t.rec? own).isSome) : u.Banked c own :=
  ⟨hw, ⟨by rw [hqueue]; exact h.queue.once, fun id => by rw [hqueue, hwait]; exact h.queue.exact id⟩,
    hpresent.trans h.present⟩

/-- Where the records hold the same and stay PRESENT, the laws are kept. -/
theorem Table.Banked.of_holding {t u : Table} {c : Settings} {own : Nat} (h : t.Banked c own)
    (hqueue : u.queue = t.queue) (hholding : ∀ id, u.holding id = t.holding id)
    (hpresent : (u.rec? own).isSome = (t.rec? own).isSome) : u.Banked c own :=
  h.of_waiting (h.within.of_holding hholding) hqueue (fun id => by rw [hholding]) hpresent

/-- The timers and the window play no part in the laws. -/
theorem Table.Banked.of_recs {t u : Table} {c : Settings} {own : Nat} (h : t.Banked c own) (hrecs : u.recs = t.recs)
    (hqueue : u.queue = t.queue) : u.Banked c own := by
  have hrec := Table.rec?_congr hrecs
  exact h.of_holding hqueue (fun id => by simp only [Table.holding, hrec]) (by rw [hrec])

/-! ## Records rewritten (R45, R47, R48, R93) -/

/-- A record that keeps what it holds keeps the laws. -/
theorem Table.Banked.put_same {t : Table} {c : Settings} {own id : Nat} {p q : Rec} (h : t.Banked c own)
    (hp : t.rec? id = some p) (hq : q.holding = p.holding) : (t.put id (some q)).Banked c own := by
  have hrec : ∀ j, (t.put id (some q)).rec? j = if j = id then some q else t.rec? j := by
    intro j
    simp [Table.rec?_put, Table.rec?_range hp]
  refine h.of_holding (t.put_queue id _) (fun j => ?_) ?_
  · unfold Table.holding
    rw [hrec]
    by_cases hj : j = id
    · subst hj; simp [hp, hq]
    · simp [hj]
  · rw [hrec]
    by_cases hj : own = id
    · subst hj; simp [hp]
    · simp [hj]

theorem Table.Banked.renew {t : Table} {c : Settings} {own : Nat} (h : t.Banked c own) (id : Nat) (q : Byte) (n : Nat) :
    (t.renew id q n).Banked c own := by
  unfold Table.renew
  split
  case h_1 p hp => exact h.put_same hp rfl
  case h_2 => exact h

theorem Table.Banked.dropGathered {t : Table} {c : Settings} {own : Nat} (h : t.Banked c own) :
    t.dropGathered.Banked c own := by
  have hsum : ∀ f, t.dropGathered.heldSum f = t.heldSum f := by
    intro f
    simp only [Table.heldSum_eq, Table.rec?_dropGathered]
    refine congrArg List.sum (List.map_congr_left fun i _ => ?_)
    cases t.rec? (i + 1) with
    | none => rfl
    | some r => obtain ⟨_, _, g⟩ := r; cases g <;> rfl
  obtain ⟨hpower, hvent, hfill⟩ := h.within
  refine h.of_waiting ⟨by rwa [hsum], by rwa [hsum], by rwa [hsum]⟩ rfl (fun id => ?_) ?_
  · rw [Table.holding_dropGathered]
    cases t.holding id <;> rfl
  · rw [Table.rec?_dropGathered]
    cases t.rec? own <;> rfl

/-- A tick of the lease timers keeps the laws (R47). -/
theorem Table.Banked.tick {t : Table} {c : Settings} {own : Nat} (h : t.Banked c own) : t.tick.Banked c own := by
  have hrec : ∀ id, t.tick.rec? id = (t.rec? id).map Rec.tick := by
    intro id
    unfold Table.tick Table.rec?
    split <;> simp
  refine h.of_holding rfl (fun id => ?_) ?_
  · unfold Table.holding
    rw [hrec]
    cases t.rec? id <;> rfl
  · rw [hrec]
    cases t.rec? own <;> rfl

/-! ## Giving up, claiming and the scan (R68 to R73, R76) -/

theorem Table.Banked.giveUp {t : Table} {c : Settings} {own : Nat} (h : t.Banked c own) (id : Nat) :
    (t.giveUp id).Banked c own := by
  refine ⟨h.within.giveUp id, h.queue.giveUp id, ?_⟩
  rw [Table.rec?_giveUp]
  split
  case isTrue hj => subst hj; simpa using h.present
  case isFalse => exact h.present

theorem Table.setHolding_present (t : Table) (id j : Nat) (g : Holding) :
    ((t.setHolding id g).rec? j).isSome = (t.rec? j).isSome := by
  rw [Table.rec?_setHolding]
  by_cases hj : j = id
  · subst hj; simp
  · simp [hj]

/-- The scan leaves every record PRESENT or ABSENT as it was (R76). -/
theorem Table.scan_present (t : Table) (c : Settings) (j : Nat) : ((t.scan c).rec? j).isSome = (t.rec? j).isSome := by
  rcases Table.scanFrom_leaves c j t.queue t with h | ⟨p, a, g, hp, -, -, h⟩
  · exact congrArg Option.isSome h
  · exact (congrArg Option.isSome h).trans (by rw [hp]; rfl)

theorem Table.Banked.scan {t : Table} {c : Settings} {own : Nat} (h : t.Banked c own) : (t.scan c).Banked c own :=
  ⟨h.within.scan, h.queue.scan c, by rw [Table.scan_present]; exact h.present⟩

/-- A CLAIM leaves every record PRESENT or ABSENT as it was (R68 to R71). -/
theorem Table.claim_present (t : Table) (c : Settings) (id j : Nat) (q : Payload) :
    ((t.claim c id q).rec? j).isSome = (t.rec? j).isSome := by
  have hgive : ((t.giveUp id).rec? j).isSome = (t.rec? j).isSome := t.setHolding_present id j .none
  have hcompete : ∀ a, (((t.giveUp id).compete c id a).rec? j).isSome = (t.rec? j).isSome := by
    intro a
    unfold Table.compete
    split
    · rw [Table.setHolding_present, hgive]
    · exact ((t.giveUp id).setHolding_present id j _).trans hgive
  unfold Table.claim
  split
  · exact hgive
  · split
    · split
      · exact t.setHolding_present id j _
      · exact hcompete _
    · exact hgive

/-- A CLAIM of a PRESENT station keeps the laws (R68 to R71). -/
theorem Table.Banked.claim {t : Table} {c : Settings} {own id : Nat} (h : t.Banked c own) (q : Payload)
    (hp : (t.rec? id).isSome = true) : (t.claim c id q).Banked c own :=
  ⟨h.within.claim id q, h.queue.claim c id q hp, by rw [Table.claim_present]; exact h.present⟩

/-! ## Peers removed and added (R41, R55, R59, R60) -/

theorem Table.Banked.remove {t : Table} {c : Settings} {own id : Nat} (h : t.Banked c own) (hid : id ≠ own) :
    (t.remove id).Banked c own := by
  refine ⟨h.within.remove id, h.queue.remove id, ?_⟩
  have hrec : (t.remove id).rec? own = (t.put id none).rec? own := rfl
  rw [hrec, Table.rec?_put, if_neg fun e => hid e.1.symm]
  exact h.present

/-- The queue holds PRESENT ids alone (R74). -/
theorem QueueIsWaiting.not_mem_of_absent {t : Table} {id : Nat} (h : QueueIsWaiting t) (hr : t.rec? id = none) :
    id ∉ t.queue := by
  intro hm
  have hw := (h.exact id).mp hm
  simp [Table.holding, hr, Holding.isWaiting] at hw

/-- A record added where none was: the queue takes the id in exactly when it waits. -/
theorem Table.Banked.added {t : Table} {c : Settings} {own id : Nat} {q : Byte} {n : Nat} {g : Holding}
    {queue : List Nat} (h : t.Banked c own) (hid : 1 ≤ id ∧ id ≤ 15) (hr : t.rec? id = none)
    (hfits : ∀ a, g = .admitted a → t.fits c a = true) (honce : queue.Nodup)
    (hqueue : ∀ j, j ∈ queue ↔ j ∈ t.queue ∨ (j = id ∧ g.isWaiting = true)) :
    ({ t.add id q n g with queue := queue } : Table).Banked c own := by
  have hrec : ∀ j, ({ t.add id q n g with queue := queue } : Table).rec? j =
      if j = id then some ⟨q, .running n, g⟩ else t.rec? j := by
    intro j
    have hput : ({ t.add id q n g with queue := queue } : Table).rec? j =
      (t.put id (some ⟨q, .running n, g⟩)).rec? j := rfl
    rw [hput, Table.rec?_put]
    simp [hid]
  have hnot := h.queue.not_mem_of_absent hr
  refine ⟨Table.Within.of_recs (h.within.add id q n g hfits) rfl, ⟨honce, fun j => ?_⟩, ?_⟩
  · rw [Table.holding, hrec]
    by_cases hj : j = id
    · subst hj; simp [hqueue, hnot]
    · simp [hqueue, hj, h.queue.exact j, Table.holding]
  · rw [hrec]
    by_cases hj : own = id
    · simp [hj]
    · simpa [hj] using h.present

/-- Adding a station that holds nothing, or whose amounts fit (R55, R59, R60). -/
theorem Table.Banked.add {t : Table} {c : Settings} {own id : Nat} {g : Holding} (h : t.Banked c own)
    (hid : 1 ≤ id ∧ id ≤ 15) (hr : t.rec? id = none) (hfits : ∀ a, g = .admitted a → t.fits c a = true)
    (hg : g.isWaiting = false) (q : Byte) (n : Nat) : (t.add id q n g).Banked c own := by
  have hsame : ({ t.add id q n g with queue := t.queue } : Table) = t.add id q n g := by
    rw [Table.add, t.put_frame]
  rw [← hsame]
  exact h.added hid hr hfits h.queue.once (fun j => by simp [hg])

/-- Adding a WAITING station at its gathered position (R60). -/
theorem Table.Banked.addGathered {t u : Table} {c : Settings} {own id : Nat} {q : Byte} {n : Nat} {a : Share}
    {g : Option Nat} (h : t.Banked c own) (hid : 1 ≤ id ∧ id ≤ 15) (hr : t.rec? id = none)
    (hu : u = t.add id q n (.waiting a g)) (pos : Nat) :
    ({ u with queue := u.insertGathered id pos u.queue } : Table).Banked c own := by
  have hqueue : u.queue = t.queue := by rw [hu, Table.add, Table.put_queue]
  obtain ⟨before, after, hinsert, hsplit, -⟩ := u.insertGathered_spec id pos u.queue
  have hperm : List.Perm (u.insertGathered id pos u.queue) (id :: t.queue) := by
    rw [hinsert, ← hqueue, hsplit]
    exact List.perm_middle
  rw [hu] at hperm ⊢
  refine h.added hid hr (fun b hb => by cases hb) ?_ (fun j => ?_)
  · exact hperm.nodup_iff.mpr (List.nodup_cons.mpr ⟨h.queue.not_mem_of_absent hr, h.queue.once⟩)
  · rw [hperm.mem_iff]
    simp [Holding.isWaiting, or_comm]

/-! ## Clearing (R39, R40) -/

/-- A table of which no record holds or awaits anything, with an empty queue, keeps the laws. -/
theorem Table.banked_of_none {t : Table} (c : Settings) {own : Nat} (hholding : ∀ id, t.holding id = .none)
    (hqueue : t.queue = []) (hpresent : (t.rec? own).isSome = true) : t.Banked c own := by
  have hpool : ∀ f n, t.heldSum f ≤ n := fun f n => by rw [Table.heldSum_of_none hholding]; exact n.zero_le
  refine ⟨⟨hpool _ _, hpool _ _, hpool _ _⟩, ⟨?_, fun id => ?_⟩, hpresent⟩
  · rw [hqueue]; exact List.nodup_nil
  · rw [hqueue, hholding]; simp [Holding.isWaiting]

/-- The records after a clearing: the own one, holding nothing (R39, R40). -/
theorem Table.rec?_clear (t : Table) (own id : Nat) : (t.clear own).rec? id =
    if id = own then (t.rec? own).map (fun r => { r with holding := .none, lease := .stopped }) else none := by
  have hempty : ∀ (v : Table) j, v.recs = Vector.replicate 15 none → v.rec? j = none := by
    intro v j hv
    rw [Table.rec?_congr (u := Table.reset) hv, Table.reset_rec?]
  unfold Table.clear
  rw [Table.rec?_put, hempty _ id rfl]
  by_cases hid : id = own
  · subst hid
    by_cases hrange : 1 ≤ id ∧ id ≤ 15
    · simp [hrange]
    · have hnone : t.rec? id = none := dif_neg hrange
      simp [hrange, hnone]
  · simp [hid]

/-- The clearing of the table keeps the laws, where the own record is PRESENT (R39, R40). -/
theorem Table.banked_clear {t : Table} (c : Settings) {own : Nat} (h : (t.rec? own).isSome = true) :
    (t.clear own).Banked c own := by
  have hqueue : (t.clear own).queue = [] := by rw [Table.clear, Table.put_queue]
  refine Table.banked_of_none c (fun id => ?_) hqueue ?_
  · rw [Table.holding, Table.rec?_clear]
    by_cases hid : id = own
    · simp only [hid, if_true]
      cases t.rec? own <;> rfl
    · simp [hid]
  · rw [Table.rec?_clear, if_pos rfl]
    simpa using h

end Sys2Proof.Machine
end

section
/-! SUPPORT. The laws of the pools and the queue (R65, R74) as what they depend on: a station on the line needs the laws
of its table, an OFFLINE one that nothing is left of the line. What leaves that side alone, one lemma per operation. -/

namespace Sys2Proof.Machine

/-! ## The two ways to keep the laws -/

/-- A station on the line whose table keeps the laws (R39, R65, R74). -/
structure OnLine (s : State) : Prop where
  joined : s.control.station ≠ .offline
  banked : s.table.Banked s.cfg s.ownId

/-- An OFFLINE station of which nothing is left on the line (R18, R36, R40). -/
structure Resting (s : State) : Prop where
  offline : s.control.station = .offline
  quiet : OfflineQuiet s

theorem OnLine.bankInv {s : State} (h : OnLine s) : BankInv s :=
  ⟨⟨h.banked.within.power, h.banked.within.vent, h.banked.within.fill⟩, h.banked.queue,
    fun hoff => absurd hoff h.joined, fun _ => h.banked.present⟩

/-- The records of an OFFLINE station are all ABSENT (R40). -/
theorem Resting.rec? {s : State} (h : Resting s) (id : Nat) : s.table.rec? id = none := by
  rw [Table.rec?_congr (u := Table.reset) h.quiet.noRecord, Table.reset_rec?]

theorem Resting.bankInv {s : State} (h : Resting s) : BankInv s := by
  have hholding : ∀ id, s.table.holding id = .none := fun id => by rw [Table.holding, h.rec?]
  have hpool : ∀ f n, s.table.heldSum f ≤ n := fun f n => by rw [Table.heldSum_of_none hholding]; exact n.zero_le
  refine ⟨⟨hpool _ _, hpool _ _, hpool _ _⟩, ⟨?_, fun id => ?_⟩, fun _ => h.quiet,
    fun hne => absurd h.offline hne⟩
  · rw [h.quiet.noQueue]; exact List.nodup_nil
  · rw [h.quiet.noQueue, hholding]; simp [Holding.isWaiting]

theorem BankInv.onLine {s : State} (h : BankInv s) (hs : s.control.station ≠ .offline) : OnLine s := by
  obtain ⟨⟨hpower, hvent, hfill⟩, hqueue, -, hpresent⟩ := h
  exact ⟨hs, ⟨hpower, hvent, hfill⟩, hqueue, hpresent hs⟩

/-- The laws hold in one of the two ways. -/
theorem bankInv_iff (s : State) : BankInv s ↔ Resting s ∨ OnLine s := by
  refine ⟨fun h => ?_, fun h => h.elim Resting.bankInv OnLine.bankInv⟩
  by_cases hs : s.control.station = .offline
  · exact .inl ⟨hs, h.offline hs⟩
  · exact .inr (h.onLine hs)

/-- An interface that is not DETACHED is that of a station on the line (R18). -/
theorem BankInv.onLine_of_attached {s : State} (h : BankInv s) (hline : s.line.state ≠ .detached) : OnLine s :=
  h.onLine fun hs => hline (h.offline hs).detached

theorem BankInv.onLine_of_takesPart {s : State} (h : BankInv s) (hp : s.control.station.takesPart = true) :
    OnLine s := h.onLine fun hs => by simp [hs, StationState.takesPart] at hp

/-! ## What the laws depend on -/

/-- Configuration, records, queue and station state, and of an OFFLINE station interface state and list. -/
def State.bankSide (s : State) :
    Settings × Vector (Option Rec) 15 × List Nat × StationState × Option (LineState × OutList) :=
  (s.cfg, s.table.recs, s.table.queue, s.control.station,
    if s.control.station = .offline then some (s.line.state, s.out) else none)

theorem OnLine.congr {s t : State} (h : OnLine s) (he : t.bankSide = s.bankSide) : OnLine t := by
  simp only [State.bankSide, Prod.mk.injEq] at he
  obtain ⟨hcfg, hrecs, hqueue, hstation, -⟩ := he
  refine ⟨by rw [hstation]; exact h.joined, ?_⟩
  rw [State.ownId, hcfg]
  exact h.banked.of_recs hrecs hqueue

theorem Resting.congr {s t : State} (h : Resting s) (he : t.bankSide = s.bankSide) : Resting t := by
  simp only [State.bankSide, Prod.mk.injEq] at he
  obtain ⟨-, hrecs, hqueue, hstation, hrest⟩ := he
  have hoff : t.control.station = .offline := by rw [hstation]; exact h.offline
  rw [if_pos hoff, if_pos h.offline] at hrest
  obtain ⟨hline, hout⟩ := Prod.mk.inj (Option.some.inj hrest)
  obtain ⟨hdetached, hflight, hentry, hrecord, hnone⟩ := h.quiet
  exact ⟨hoff, by rw [hline, hdetached], by rw [hout, hflight], by rw [hout, hentry], by rw [hrecs, hrecord],
    by rw [hqueue, hnone]⟩

theorem BankInv.congr {s t : State} (h : BankInv s) (he : t.bankSide = s.bankSide) : BankInv t :=
  (bankInv_iff t).mpr (((bankInv_iff s).mp h).imp (fun h => h.congr he) (fun h => h.congr he))

/-! ## The basic operations -/

@[simp] theorem State.setPending_bankSide (s : State) (x : List Instr) : (s.setPending x).bankSide = s.bankSide := rfl
@[simp] theorem State.setFree_bankSide (s : State) (x : Nat) : (s.setFree x).bankSide = s.bankSide := rfl
@[simp] theorem State.setEngine_bankSide (s : State) (x : Engine) : (s.setEngine x).bankSide = s.bankSide := rfl
@[simp] theorem State.setMeas_bankSide (s : State) (x : Meas) : (s.setMeas x).bankSide = s.bankSide := rfl
@[simp] theorem State.setLoad_bankSide (s : State) (x : Load) : (s.setLoad x).bankSide = s.bankSide := rfl
@[simp] theorem State.setFault_bankSide (s : State) (x : Option FaultRecord) :
    (s.setFault x).bankSide = s.bankSide := rfl
@[simp] theorem State.setPort_bankSide (s : State) (x : Port) : (s.setPort x).bankSide = s.bankSide := rfl
@[simp] theorem emit_bankSide (k : EventKind) (a b c d e : Nat) (s : State) :
    (emit k a b c d e s).bankSide = s.bankSide := rfl
@[simp] theorem bump_bankSide (c : Counter) (s : State) : (bump c s).bankSide = s.bankSide := rfl
@[simp] theorem refresh_bankSide (s : State) : (refresh s).bankSide = s.bankSide := rfl

/-- Station Control's other fields play no part. -/
theorem State.setControl_bankSide {s : State} {c : Control} (h : c.station = s.control.station) :
    (s.setControl c).bankSide = s.bankSide := by
  unfold State.bankSide
  rw [State.setControl_control, h]
  rfl

/-- The table's timers and window play no part. -/
theorem State.setTable_bankSide {s : State} {t : Table} (hrecs : t.recs = s.table.recs)
    (hqueue : t.queue = s.table.queue) : (s.setTable t).bankSide = s.bankSide := by
  unfold State.bankSide
  rw [State.setTable_table, hrecs, hqueue]
  rfl

/-- On the line the interface and the list are free. -/
theorem State.setLine_bankSide {s : State} (l : Line) (h : s.control.station ≠ .offline) :
    (s.setLine l).bankSide = s.bankSide := by
  simp [State.bankSide, h]

theorem State.setOut_bankSide {s : State} (o : OutList) (h : s.control.station ≠ .offline) :
    (s.setOut o).bankSide = s.bankSide := by
  simp [State.bankSide, h]

theorem State.joined_of_takesPart {s : State} (h : s.control.station.takesPart = true) :
    s.control.station ≠ .offline := by
  intro hs
  simp [hs, StationState.takesPart] at h

/-! ## Postings and the engine -/

@[simp] theorem post_bankSide (id : SlotId) (c : Content) (s : State) : (post id c s).bankSide = s.bankSide := by
  unfold post
  split
  case isTrue hp => exact State.setOut_bankSide _ (State.joined_of_takesPart hp)
  case isFalse => rfl
@[simp] theorem postExpire_bankSide (target : Nat) (q : Byte) (s : State) :
    (postExpire target q s).bankSide = s.bankSide := by
  unfold postExpire; (repeat' split) <;> simp
@[simp] theorem postIntent_bankSide (c : Content) (s : State) : (postIntent c s).bankSide = s.bankSide := by
  unfold postIntent; (repeat' split) <;> simp
@[simp] theorem postClaim_bankSide (s : State) : (postClaim s).bankSide = s.bankSide := by
  simp [postClaim]
@[simp] theorem giveUpShare_bankSide (s : State) : (giveUpShare s).bankSide = s.bankSide := by
  unfold giveUpShare; (repeat' split) <;> simp
@[simp] theorem enterFaulted_bankSide (c : FaultCode) (b : FaultSub) (s : State) :
    (enterFaulted c b s).bankSide = s.bankSide := by
  simp [enterFaulted]
@[simp] theorem raiseFault_bankSide (c : FaultCode) (s : State) : (raiseFault c s).bankSide = s.bankSide := by
  unfold raiseFault; (repeat' split) <;> simp
@[simp] theorem laterFault_bankSide (c : FaultCode) (s : State) : (laterFault c s).bankSide = s.bankSide := by
  simp [laterFault]
@[simp] theorem enterHeld_bankSide (r : HoldReason) (l : Option Substate) (p : Option Nat) (s : State) :
    (enterHeld r l p s).bankSide = s.bankSide := by
  unfold enterHeld; simp only []; (repeat' split) <;> simp
@[simp] theorem addReason_bankSide (r : HoldReason) (s : State) : (addReason r s).bankSide = s.bankSide := by
  unfold addReason; simp only []; (repeat' split) <;> simp
@[simp] theorem setSub_bankSide (b : Substate) (s : State) : (setSub b s).bankSide = s.bankSide := by
  simp [setSub]
@[simp] theorem claimPhase_bankSide (s : State) : (claimPhase s).bankSide = s.bankSide := by
  unfold claimPhase; simp only []; (repeat' split) <;> simp
@[simp] theorem entryTests_bankSide (l : Option Substate) (s : State) : (entryTests l s).bankSide = s.bankSide := by
  unfold entryTests; simp only []; (repeat' split) <;> simp
@[simp] theorem enterFresh_bankSide (i : Nat) (l : Option Substate) (s : State) :
    (enterFresh i l s).bankSide = s.bankSide := by
  simp [enterFresh]
@[simp] theorem leaveHeld_bankSide (s : State) : (leaveHeld s).bankSide = s.bankSide := by
  simp [leaveHeld]
@[simp] theorem takeReason_bankSide (r : HoldReason) (s : State) : (takeReason r s).bankSide = s.bankSide := by
  simp [takeReason]
@[simp] theorem removeReason_bankSide (r : HoldReason) (s : State) : (removeReason r s).bankSide = s.bankSide := by
  unfold removeReason; simp only []; (repeat' split) <;> simp
@[simp] theorem endPurge_bankSide (s : State) : (endPurge s).bankSide = s.bankSide := by
  simp [endPurge]
@[simp] theorem noticeAdmitted_bankSide (b : Substate) (s : State) : (noticeAdmitted b s).bankSide = s.bankSide := by
  unfold noticeAdmitted; simp only []; (repeat' split) <;> simp
@[simp] theorem noticeWaiting_bankSide (b : Substate) (s : State) : (noticeWaiting b s).bankSide = s.bankSide := by
  unfold noticeWaiting; (repeat' split) <;> simp
@[simp] theorem noticeNone_bankSide (b : Substate) (s : State) : (noticeNone b s).bankSide = s.bankSide := by
  unfold noticeNone; (repeat' split) <;> simp
@[simp] theorem noticeHeld_bankSide (s : State) : (noticeHeld s).bankSide = s.bankSide := by
  unfold noticeHeld; (repeat' split) <;> simp
@[simp] theorem notify_bankSide (n : Notice) (s : State) : (notify n s).bankSide = s.bankSide := by
  unfold notify; simp only []; (repeat' split) <;> simp
@[simp] theorem memberEntered_bankSide (s : State) : (memberEntered s).bankSide = s.bankSide := by
  unfold memberEntered; (repeat' split) <;> simp
@[simp] theorem completeCycle_bankSide (s : State) : (completeCycle s).bankSide = s.bankSide := by
  simp [completeCycle]
@[simp] theorem endPhase_bankSide (o : Nat) (s : State) : (endPhase o s).bankSide = s.bankSide := by
  unfold endPhase; simp only []; (repeat' split) <;> simp
@[simp] theorem durationReached_bankSide (s : State) : (durationReached s).bankSide = s.bankSide := by
  unfold durationReached; simp only []; (repeat' split) <;> simp
@[simp] theorem limitReached_bankSide (s : State) : (limitReached s).bankSide = s.bankSide := by
  unfold limitReached; simp only []; (repeat' split) <;> simp
@[simp] theorem doorOpened_bankSide (s : State) : (doorOpened s).bankSide = s.bankSide := by
  unfold doorOpened; (repeat' split) <;> simp
@[simp] theorem doorClosed_bankSide (s : State) : (doorClosed s).bankSide = s.bankSide := by
  unfold doorClosed; simp only []; (repeat' split) <;> simp
@[simp] theorem purgeRanOut_bankSide (s : State) : (purgeRanOut s).bankSide = s.bankSide := by
  unfold purgeRanOut; (repeat' split) <;> simp

/-! ## Samples and the door -/

@[simp] theorem report_bankSide (c : FaultCode) (o b : Bool) (s : State) : (report c o b s).bankSide = s.bankSide := by
  unfold report; (repeat' split) <;> simp
@[simp] theorem reportAll_bankSide (b : Bool) (cs : List Condition) (s : State) :
    (reportAll b cs s).bankSide = s.bankSide := by
  unfold reportAll
  induction cs generalizing s with
  | nil => rfl
  | cons c rest ih => rw [List.foldl_cons, ih]; split <;> simp
@[simp] theorem storeSample_bankSide (m : Sample) (s : State) : (storeSample m s).bankSide = s.bankSide := by
  simp [storeSample]
@[simp] theorem endTest_bankSide (s : State) : (endTest s).bankSide = s.bankSide := by
  unfold endTest; (repeat' split) <;> simp
@[simp] theorem tankTest_bankSide (s : State) : (tankTest s).bankSide = s.bankSide := by
  unfold tankTest; (repeat' split) <;> simp
@[simp] theorem levelLow_bankSide (s : State) : (levelLow s).bankSide = s.bankSide := by
  unfold levelLow; simp only []; (repeat' split) <;> simp
@[simp] theorem engineSample_bankSide (b : Bool) (cs : List Condition) (s : State) :
    (engineSample b cs s).bankSide = s.bankSide := by
  simp [engineSample]
@[simp] theorem regulate_bankSide (s : State) : (regulate s).bankSide = s.bankSide := by
  unfold regulate; (repeat' split) <;> simp
@[simp] theorem sampleStep_bankSide (d : Bool) (m : Sample) (s : State) : (sampleStep d m s).bankSide = s.bankSide := by
  unfold sampleStep; simp only []; (repeat' split) <;> simp
@[simp] theorem takeSample_bankSide (inp : Sensors) (s : State) : (takeSample inp s).bankSide = s.bankSide := by
  simp [takeSample]
@[simp] theorem edgeDoor_bankSide (s : State) : (edgeDoor s).bankSide = s.bankSide := by
  simp [edgeDoor]
@[simp] theorem changeDoor_bankSide (s : State) : (changeDoor s).bankSide = s.bankSide := by
  unfold changeDoor; simp only []; (repeat' split) <;> simp

/-! ## Station Control, the list and the frames -/

@[simp] theorem stationEvent_bankSide (b : StationState) (c : Cause) (q : Nat) (s : State) :
    (stationEvent b c q s).bankSide = s.bankSide := by
  simp [stationEvent]
@[simp] theorem commandDone_bankSide (a : Awaited) (c : Cause) (s : State) :
    (commandDone a c s).bankSide = s.bankSide :=
  State.setControl_bankSide (s := s) rfl
@[simp] theorem completeJoin_bankSide (c : Cause) (s : State) : (completeJoin c s).bankSide = s.bankSide := by
  unfold completeJoin; (repeat' split) <;> simp
@[simp] theorem postRollcall_bankSide (s : State) : (postRollcall s).bankSide = s.bankSide := by
  simp [postRollcall]
@[simp] theorem postOwedRenewal_bankSide (s : State) : (postOwedRenewal s).bankSide = s.bankSide := by
  unfold postOwedRenewal; (repeat' split) <;> simp
@[simp] theorem membershipTimeout_bankSide (s : State) : (membershipTimeout s).bankSide = s.bankSide := by
  unfold membershipTimeout
  split
  · exact State.setControl_bankSide rfl
  · rfl
@[simp] theorem sendStart_bankSide (s : State) : (sendStart s).bankSide = s.bankSide := by
  unfold sendStart
  split
  · rfl
  · next id hoffer =>
    have hp : s.control.station.takesPart = true := by
      by_contra hno
      simp [hno] at hoffer
    have hjoined := State.joined_of_takesPart hp
    split
    · rfl
    · rw [State.setOut_bankSide, State.setLine_bankSide] <;> exact hjoined
@[simp] theorem grant_bankSide (s : State) : (grant s).bankSide = s.bankSide := by
  unfold grant; (repeat' split) <;> simp
@[simp] theorem noticeHeard_bankSide (w : Bool) (s : State) : (noticeHeard w s).bankSide = s.bankSide := by
  unfold noticeHeard; (repeat' split) <;> simp
@[simp] theorem noticeOwn_bankSide (r : Bool) (s : State) : (noticeOwn r s).bankSide = s.bankSide := by
  unfold noticeOwn; (repeat' split) <;> simp
@[simp] theorem ownOutcome_bankSide (k : FrameKind) (r : Bool) (q : Byte) (s : State) :
    (ownOutcome k r q s).bankSide = s.bankSide := by
  simp [ownOutcome]
@[simp] theorem staleExpire_bankSide (t : Nat) (w : Bool) (s : State) : (staleExpire t w s).bankSide = s.bankSide := by
  unfold staleExpire; simp only []; (repeat' split) <;> simp
@[simp] theorem budgetRejected_bankSide (k : FrameKind) (i : Nat) (p : Payload) (s : State) :
    (budgetRejected k i p s).bankSide = s.bankSide := by
  simp [budgetRejected]
@[simp] theorem openWindow_bankSide (s : State) : (openWindow s).bankSide = s.bankSide := by
  unfold openWindow
  simp only []
  split
  · rw [post_bankSide]; exact State.setTable_bankSide rfl rfl
  · exact State.setTable_bankSide rfl rfl
@[simp] theorem standingKnown_bankSide (f : Frame) (s : State) : (standingKnown f s).1.bankSide = s.bankSide := by
  unfold standingKnown; simp only []; (repeat' split) <;> simp
@[simp] theorem markAnswered_bankSide (s : State) : (markAnswered s).bankSide = s.bankSide := by
  unfold markAnswered
  split
  · exact State.setControl_bankSide rfl
  · rfl

/-! ## Timers -/

@[simp] theorem renewalOut_bankSide (s : State) : (renewalOut s).bankSide = s.bankSide := by
  have htable : (s.setTable { s.table with renewal := .runOut }).bankSide = s.bankSide :=
    State.setTable_bankSide rfl rfl
  unfold renewalOut
  simp only []
  (repeat' split) <;> simp [htable]
@[simp] theorem windowOut_bankSide (s : State) : (windowOut s).bankSide = s.bankSide := by
  unfold windowOut
  split
  · exact State.setTable_bankSide rfl rfl
  · rfl

/-! ## The port and the cycle commands -/

@[simp] theorem endCounts_bankSide (a b : Bool) (s : State) : (endCounts a b s).bankSide = s.bankSide := by
  unfold endCounts; simp only []; (repeat' split) <;> simp
@[simp] theorem endTransaction_bankSide (s : State) : (endTransaction s).bankSide = s.bankSide := by
  unfold endTransaction; simp only []; (repeat' split) <;> simp
@[simp] theorem setTxn_bankSide (t : OpenTxn) (s : State) : (setTxn t s).bankSide = s.bankSide := by
  simp [setTxn]
@[simp] theorem writeNextOut_bankSide (v : Byte) (s : State) : (writeNextOut v s).bankSide = s.bankSide := by
  unfold writeNextOut; simp only []; (repeat' split) <;> simp
@[simp] theorem writeCode_bankSide (v : Byte) (t : OpenTxn) (s : State) : (writeCode v t s).bankSide = s.bankSide := by
  unfold writeCode; simp only []; (repeat' split) <;> simp
@[simp] theorem writeRegister_bankSide (a : Nat) (v : Byte) (t : OpenTxn) (s : State) :
    (writeRegister a v t s).bankSide = s.bankSide := by
  unfold writeRegister; simp only []; (repeat' split) <;> simp
@[simp] theorem advanceAddr_bankSide (s : State) : (advanceAddr s).bankSide = s.bankSide := by
  unfold advanceAddr; (repeat' split) <;> simp
@[simp] theorem beginHeader_bankSide (s : State) : (beginHeader s).bankSide = s.bankSide := by
  simp [beginHeader]
@[simp] theorem headerByte_bankSide (b : SpiByte) (bytes : List Byte) (s : State) :
    (headerByte b bytes s).bankSide = s.bankSide := by
  simp [headerByte]
@[simp] theorem storeCode_bankSide (c : Byte) (s : State) : (storeCode c s).bankSide = s.bankSide := by
  simp [storeCode]
@[simp] theorem answered_bankSide (r : Result) (s : State) : (answered r s).bankSide = s.bankSide := by
  simp [answered]
@[simp] theorem complete_bankSide (s : State) : (complete s).bankSide = s.bankSide := by
  unfold complete; simp only []; (repeat' split) <;> simp
@[simp] theorem snapshot_bankSide (s : State) : (snapshot s).bankSide = s.bankSide := by
  simp [snapshot]
@[simp] theorem clearCounts_bankSide (s : State) : (clearCounts s).bankSide = s.bankSide := by
  simp [clearCounts]
@[simp] theorem clearAtTake_bankSide (s : State) : (clearAtTake s).bankSide = s.bankSide := by
  unfold clearAtTake; simp only []; (repeat' split) <;> simp
@[simp] theorem loadCycle_bankSide (s : State) : (loadCycle s).1.bankSide = s.bankSide := by
  unfold loadCycle; (repeat' split) <;> simp
@[simp] theorem startCycle_bankSide (s : State) : (startCycle s).1.bankSide = s.bankSide := by
  unfold startCycle; (repeat' split) <;> simp
@[simp] theorem hold_bankSide (s : State) : (hold s).1.bankSide = s.bankSide := by
  unfold hold; (repeat' split) <;> simp
@[simp] theorem resume_bankSide (s : State) : (resume s).1.bankSide = s.bankSide := by
  unfold resume; (repeat' split) <;> simp
@[simp] theorem abortCycle_bankSide (s : State) : (abortCycle s).1.bankSide = s.bankSide := by
  unfold abortCycle; (repeat' split) <;> simp
@[simp] theorem clearFault_bankSide (s : State) : (clearFault s).1.bankSide = s.bankSide := by
  unfold clearFault; (repeat' split) <;> simp

end Sys2Proof.Machine
end

section
/-! SUPPORT. That Station Control, the Outgoing List and the frames keep the laws of the pools and the queue (chapters 1
to 5): each transition, each outcome and each frame, for a station on the line. -/

namespace Sys2Proof.Machine

/-! ## One block replaced on the line -/

section
variable {s : State} (h : OnLine s)
include h

theorem OnLine.setTable {t : Table} (ht : t.Banked s.cfg s.ownId) : OnLine (s.setTable t) := ⟨h.joined, ht⟩

theorem OnLine.setLine (l : Line) : OnLine (s.setLine l) := h.congr (State.setLine_bankSide l h.joined)

theorem OnLine.setOut (o : OutList) : OnLine (s.setOut o) := h.congr (State.setOut_bankSide o h.joined)

theorem OnLine.setControl {c : Control} (hc : c.station = s.control.station) : OnLine (s.setControl c) :=
  h.congr (State.setControl_bankSide hc)

end

/-! ## Transitions (chapter 5) -/

/-- Entry into GATHERING clears the table down to the own record (R39, R90). -/
theorem enterGathering_onLine {s : State} (c : Cause) (q : Nat) (h : (s.table.rec? s.ownId).isSome = true) :
    OnLine (enterGathering c q s) := by
  rw [enterGathering_eq]
  exact ⟨by simp, Table.banked_clear s.cfg h⟩

theorem resync_onLine {s : State} (c : Cause) (h : OnLine s) : OnLine (resync c s) :=
  enterGathering_onLine c 0 h.banked.present

theorem restartGathering_onLine {s : State} (c : Cause) (h : OnLine s) : OnLine (restartGathering c s) :=
  enterGathering_onLine .gatherRestart c.code h.banked.present

theorem isolate_onLine {s : State} (c : Cause) (h : OnLine s) : OnLine (isolate c s) := by
  rw [isolate_eq]
  exact OnLine.congr ⟨by simp, Table.banked_clear s.cfg h.banked.present⟩ (completeJoin_bankSide c _)

/-- Entry into OFFLINE leaves nothing on the line (R104). -/
theorem goOffline_resting (c : Cause) (s : State) : Resting (goOffline c s) := by
  have hrest : Resting (s.offlined c) := ⟨rfl, rfl, rfl, rfl, rfl, rfl⟩
  rw [goOffline_eq]
  split
  · exact hrest.congr (commandDone_bankSide _ _ _)
  · exact hrest

/-- DEAF or SILENT isolates a station or takes it OFFLINE (R98). -/
theorem failed_keepsBank {s : State} (c : Cause) (h : BankInv s) : BankInv (failed c s) := by
  unfold failed
  split
  case h_1 hs | h_2 hs => exact (isolate_onLine c (h.onLine (by simp [hs]))).bankInv
  case h_3 => exact (goOffline_resting c s).bankInv
  case h_4 | h_5 => exact h

theorem reportObjection_keepsBank {s : State} (h : BankInv s) : BankInv (reportObjection s) := by
  have hrun : BankInv (s.setControl { s.control with run := s.control.run + 1 }) :=
    h.congr (State.setControl_bankSide rfl)
  unfold reportObjection
  simp only []
  split
  · split
    · exact failed_keepsBank _ hrun
    · exact hrun
  · exact h

theorem countObjection_keepsBank {s : State} (h : BankInv s) : BankInv (countObjection s) :=
  reportObjection_keepsBank (h.congr (bump_bankSide _ s))

/-- What follows a finding leaves the station on the line (R42). -/
theorem onFinding_onLine {s : State} (c : Cause) (h : OnLine s) : OnLine (onFinding c s) := by
  unfold onFinding
  split
  case h_1 =>
    split
    · exact isolate_onLine c h
    · exact restartGathering_onLine c h
  case h_2 =>
    split
    · exact isolate_onLine c h
    · split
      · exact resync_onLine c h
      · exact h
  case h_3 | h_4 | h_5 => exact h

theorem rejoinTimeout_keepsBank {s : State} (h : BankInv s) : BankInv (rejoinTimeout s) := by
  unfold rejoinTimeout
  split
  case isTrue hrun =>
    have hline : OnLine s := h.onLine (by simp [hrun.2])
    split
    · refine (enterGathering_onLine _ _ ?_).bankInv
      exact hline.banked.present
    · refine (hline.setControl ?_).bankInv
      rfl
  case isFalse => exact h

/-- Entry into MEMBER discards the gathered positions; a run-out self-lease gathers again (R50, R93). -/
theorem enterMember_onLine {s : State} (h : OnLine s) : OnLine (enterMember s) := by
  have hmember : OnLine ((s.setControl { s.control with
      station := .member, answered := false, memberTimer := .running s.cfg.leaseTicks }).setTable
        s.table.dropGathered) := ⟨by simp, h.banked.dropGathered⟩
  have hjoined : OnLine s.joined := hmember.congr (by simp [State.joined])
  rw [enterMember_eq]
  split
  · exact resync_onLine _ hjoined
  · exact hjoined.congr (memberEntered_bankSide _)

theorem closeWindow_onLine {s : State} (h : OnLine s) : OnLine (closeWindow s) := by
  have hclosed := h.setTable (h.banked.of_recs (u := s.table.closed) rfl rfl)
  unfold closeWindow windowClosed
  split
  · split
    · exact enterMember_onLine hclosed
    · exact hclosed
  · exact h

/-! ## The list (chapter 2) -/

/-- A dropped LEAVE takes a LEAVING station OFFLINE; every other report posts at most (R34). -/
theorem reportDrop_keepsBank {s : State} (c : Content) (h : BankInv s) : BankInv (reportDrop c s) := by
  by_cases hleave : c = .leave ∧ s.control.station = .leaving
  · obtain ⟨rfl, hs⟩ := hleave
    simp only [reportDrop, hs, if_true]
    exact (goOffline_resting _ s).bankInv
  · refine h.congr ?_
    cases c with
    | leave =>
      have hs : s.control.station ≠ .leaving := fun hs => hleave ⟨rfl, hs⟩
      simp [reportDrop, hs]
    | expire t q => simp only [reportDrop]; (repeat' split) <;> simp
    | release | claim a => simp [reportDrop]
    | rollcall p v f | standing => simp only [reportDrop]; split <;> simp

theorem dropEntry_keepsBank {s : State} (id : SlotId) (e : Entry) (cause : Nat) (h : OnLine s) :
    BankInv (dropEntry id e cause (s.setOut { s.out with flight := none })) := by
  have hdropped : OnLine (s.afterDrop id e cause) := (h.setOut (s.out.dropped id)).congr rfl
  have hreport := reportDrop_keepsBank e.content hdropped.bankInv
  rw [dropEntry_eq]
  split
  · exact failed_keepsBank _ hreport
  · exact hreport

theorem listFailed_keepsBank {s : State} (cause : Nat) (h : OnLine s) : BankInv (listFailed cause s) := by
  have hs1 := h.setOut { s.out with flight := none }
  unfold listFailed
  simp only []
  split
  · exact h.bankInv
  · split
    · exact (hs1.setOut _).bankInv
    · split
      · exact hs1.bankInv
      · split <;> split
        · exact dropEntry_keepsBank _ _ _ h
        · exact (hs1.setOut _).bankInv
        · exact dropEntry_keepsBank _ _ _ h
        · exact (hs1.setOut _).bankInv

theorem listApplied_onLine {s : State} (h : OnLine s) : OnLine (listApplied s) := by
  unfold listApplied
  simp only []
  split
  · exact h.setOut _
  · exact (h.setOut _).setOut _

theorem atIdle_onLine {s : State} (d : Bool) (h : OnLine s) : OnLine (atIdle d s) := by
  have hclosed := closeWindow_onLine (h.setLine s.line.atIdle)
  unfold atIdle
  simp only []
  split
  · exact hclosed.setLine _
  · exact hclosed.congr (sendStart_bankSide _)

/-! ## What a frame does to the table (chapters 3 and 4) -/

theorem removePeer_onLine {s : State} {id : Nat} (cause : Nat) (h : OnLine s) (hid : id ≠ s.ownId) :
    OnLine (removePeer id cause s) :=
  (h.setTable (h.banked.remove hid).scan).congr (by rw [removePeer_eq, emit_bankSide])

theorem applyExpire_onLine {s : State} (target : Nat) (q : Byte) (w : Bool) (h : OnLine s) :
    OnLine (applyExpire target q w s).1 := by
  unfold applyExpire
  split
  · split
    · split
      · exact h
      · next hown => exact removePeer_onLine 1 h hown
    · exact h.congr (staleExpire_bankSide ..)
  · exact h.congr (staleExpire_bankSide ..)

/-- A sender id other than 0 has a record of the table (R38). -/
theorem sender_range (b : BitVec 4) (h : b.toNat ≠ 0) : 1 ≤ b.toNat ∧ b.toNat ≤ 15 := by
  have hlt := b.isLt
  omega

section
variable {f : Frame} {s : State} (h : OnLine s) (h0 : f.sender.toNat ≠ 0)
include h h0

theorem addPeer_onLine {k : FrameKind} {g : Holding} (hr : s.table.rec? f.sender.toNat = none)
    (hfits : ∀ a, g = .admitted a → s.table.fits s.cfg a = true) (hg : g.isWaiting = false) :
    OnLine (addPeer k f.sender.toNat f.seq g s) :=
  (h.setTable (h.banked.add (sender_range _ h0) hr hfits hg _ _)).congr (emit_bankSide ..)

theorem addGathered_onLine (hr : s.table.rec? f.sender.toNat = none) : OnLine (addGathered f s).1 := by
  unfold addGathered
  simp only []
  split
  · exact h
  · split
    · split
      · next hfits => exact addPeer_onLine h h0 hr (fun a ha => by cases ha; exact hfits) rfl
      · exact h
    · exact ⟨h.joined, h.banked.addGathered (sender_range _ h0) hr rfl _⟩

theorem standingUnknown_onLine (hr : s.table.rec? f.sender.toNat = none) : OnLine (standingUnknown f s).1 := by
  unfold standingUnknown
  simp only []
  split
  · split
    · exact h
    · exact h.congr (budgetRejected_bankSide ..)
  · split
    · exact addPeer_onLine h h0 hr (fun a ha => by cases ha) rfl
    · split
      · split
        · exact h
        · exact addGathered_onLine h h0 hr
      · exact h

theorem rollcallPeer_onLine (hown : f.sender.toNat ≠ s.ownId) : OnLine (rollcallPeer f s) := by
  have hrejected : OnLine (budgetRejected .rollcall f.sender.toNat f.payload s) := h.congr (budgetRejected_bankSide ..)
  unfold rollcallPeer
  simp only []
  split
  · next hr =>
    split
    · exact addPeer_onLine h h0 hr (fun a ha => by cases ha) rfl
    · exact hrejected
  · split
    · exact h.setTable ((h.banked.renew _ _ _).giveUp _).scan
    · exact removePeer_onLine 3 hrejected hown

end

/-- The effect of a frame with the next sequence (R45). -/
theorem applyHeard_onLine {f : Frame} {s : State} {p : Rec} (h : OnLine s) (hown : f.sender.toNat ≠ s.ownId)
    (hr : s.table.rec? f.sender.toNat = some p) : OnLine (applyHeard f s).1 := by
  have hbanked := h.banked.renew f.sender.toNat f.seq s.cfg.leaseTicks
  have hpresent : ((s.table.renew f.sender.toNat f.seq s.cfg.leaseTicks).rec? f.sender.toNat).isSome = true := by
    rw [Table.rec?_renew, if_pos rfl, hr]
    rfl
  have hrenewed := (h.setTable hbanked).setOut (s.out.withdraw f.sender.toNat)
  unfold applyHeard
  simp only []
  cases f.kind with
  | expire => exact applyExpire_onLine _ _ _ (hrenewed.setOut _)
  | leave => exact removePeer_onLine 2 hrenewed hown
  | release => exact hrenewed.setTable (hbanked.giveUp _).scan
  | claim => exact hrenewed.setTable (hbanked.claim f.payload hpresent).scan
  | rollcall => exact hrenewed
  | standing => exact hrenewed.congr (standingKnown_bankSide ..)

theorem takeHeardCore_onLine {s : State} (f : Frame) (h : OnLine s) : OnLine (takeHeardCore f s).1 := by
  unfold takeHeardCore
  simp only []
  split
  · exact h
  · next hown =>
    split
    · exact h
    · next h0 =>
      split
      · exact OnLine.congr ((rollcallPeer_onLine h h0 hown).setOut _) (openWindow_bankSide _)
      · split
        · next hr =>
          split
          · exact standingUnknown_onLine h h0 hr
          · exact h
        · next p hr =>
          split
          · exact applyHeard_onLine h hown hr
          · exact h

theorem takeHeard_onLine {s : State} (f : Frame) (h : OnLine s) : OnLine (takeHeard f s) := by
  have hcore := takeHeardCore_onLine f h
  unfold takeHeard
  split
  · next s1 c heq => rw [heq] at hcore; exact onFinding_onLine c hcore
  · next s1 heq => rw [heq] at hcore; exact hcore.congr (noticeHeard_bankSide ..)

/-! ## Own frames (R46) -/

theorem renewOwn_onLine {s : State} (q : Byte) (h : OnLine s) : OnLine (renewOwn q s) := by
  obtain ⟨p, hp⟩ := Option.isSome_iff_exists.mp h.banked.present
  unfold renewOwn
  simp only [hp]
  exact h.setTable ((h.banked.put_same (q := { p with seq := q }) hp rfl).of_recs rfl rfl)

/-- An own LEAVE takes the station OFFLINE; every other own frame leaves it on the line (R46). -/
theorem takeOwn_keepsBank {s : State} (f : Frame) (h : OnLine s) : BankInv (takeOwn f s) := by
  have hrenewed := renewOwn_onLine f.seq h
  have hgiven : OnLine ((renewOwn f.seq s).setTable
      (((renewOwn f.seq s).table.giveUp (renewOwn f.seq s).ownId).scan (renewOwn f.seq s).cfg)) :=
    hrenewed.setTable (hrenewed.banked.giveUp _).scan
  unfold takeOwn
  simp only []
  cases f.kind with
  | expire =>
    have hexpire := applyExpire_onLine f.payload.p0.toNat f.payload.p1 false hrenewed
    simp only []
    split
    · next heq => rw [heq] at hexpire; exact (onFinding_onLine _ hexpire).bankInv
    · next heq => rw [heq] at hexpire; exact hexpire.bankInv
  | leave => exact (goOffline_resting _ _).bankInv
  | release => exact (hgiven.congr (ownOutcome_bankSide ..)).bankInv
  | claim =>
    exact ((hrenewed.setTable (hrenewed.banked.claim f.payload hrenewed.banked.present).scan).congr
      (ownOutcome_bankSide ..)).bankInv
  | rollcall => exact (hgiven.congr (by simp)).bankInv
  | standing => exact hrenewed.bankInv

/-! ## The end of a frame (chapter 1) -/

theorem deliver_keepsBank {s : State} (own : Bool) (f : Frame) (h : OnLine s) : BankInv (deliver own f s) := by
  have hcounted : OnLine ((bump .framesApplied s).setControl { (bump .framesApplied s).control with run := 0 }) :=
    (h.congr (bump_bankSide _ s)).setControl rfl
  unfold deliver
  simp only []
  split
  · exact takeOwn_keepsBank f hcounted
  · exact (takeHeard_onLine f hcounted).bankInv

/-- A station that objects takes nothing in, so that only a station still on the line does (R12, R14). -/
theorem heardEnd_keepsBank {s : State} (kind : BitVec 4) (r : Reading) (void : Bool) (h : OnLine s) :
    BankInv (heardEnd kind r void s) := by
  unfold heardEnd
  simp only []
  generalize hd : slotDecision s.control.station.takesPart (r.markFault || r.crcBad kind) r.slot1Fault
    r.slot1Dominant = d
  generalize hs2 : (if r.finding kind = true then bump .receptionErrors (s.setLine (s.line.frameEnded d))
    else s.setLine (s.line.frameEnded d)) = s2
  have hline : OnLine s2 := by
    have hended := h.setLine (s.line.frameEnded d)
    subst hs2
    split
    · exact hended.congr (bump_bankSide _ _)
    · exact hended
  cases hobj : d.isObjection with
  | true =>
    have hfinding : r.finding kind = true := by
      rcases finding_of_objection (hd ▸ hobj) with hf | hf <;> simp [Reading.finding, hf]
    simp only [hfinding, Bool.or_true, if_true]
    exact countObjection_keepsBank hline.bankInv
  | false =>
    simp only [Bool.false_eq_true, if_false]
    split
    · exact hline.bankInv
    · split
      · exact (hline.congr (bump_bankSide _ _)).bankInv
      · split
        · exact deliver_keepsBank _ _ hline
        · exact hline.bankInv

theorem ownOutcomeReport_keepsBank {s : State} (f : Frame) (part applied : Bool) (h : BankInv s) :
    BankInv (ownOutcomeReport f part applied s) := by
  unfold ownOutcomeReport
  split
  · exact h
  · next hattached =>
    have hline := h.onLine_of_attached hattached
    split
    · have happlied : OnLine (listApplied (bump .ownApplied s)) :=
        listApplied_onLine (hline.congr (bump_bankSide _ s))
      simp only []
      split
      · exact deliver_keepsBank _ _ happlied
      · exact happlied.bankInv
    · exact listFailed_keepsBank _ (hline.congr (bump_bankSide _ s))

theorem ownEnd_keepsBank {s : State} (f : Frame) (r : Reading) (driveFault void : Bool) (h : OnLine s) :
    BankInv (ownEnd f r driveFault void s) := by
  have hended : ∀ d, BankInv (s.setLine (s.line.frameEnded d)) := fun d => (h.setLine _).bankInv
  have hfree : ∀ d n, BankInv ((s.setLine (s.line.frameEnded d)).setFree n) := fun d n =>
    (hended d).congr (State.setFree_bankSide _ n)
  unfold ownEnd
  simp only []
  split
  · split
    · split
      · exact countObjection_keepsBank (ownOutcomeReport_keepsBank _ _ _ (hfree _ _))
      · exact ownOutcomeReport_keepsBank _ _ _ (countObjection_keepsBank (hfree _ _))
    · exact ownOutcomeReport_keepsBank _ _ _ (countObjection_keepsBank (hended _))
  · exact ownOutcomeReport_keepsBank _ _ _ (hended _)

theorem loseArbitration_keepsBank {s : State} (kept : List Bool) (h : OnLine s) : BankInv (loseArbitration kept s) :=
  listFailed_keepsBank 2 ((h.setLine (s.line.lost kept)).congr (bump_bankSide _ _))

/-- The end of a frame keeps the laws: only an attached interface meets one (R4, R18). -/
theorem frameEnd_keepsBank {s : State} (kind : BitVec 4) (r : Reading) (void : Bool) (h : BankInv s) :
    BankInv (frameEnd kind r void s) := by
  by_cases hdetached : s.line.state = .detached
  · rw [frameEnd_of_detached hdetached]
    exact h
  have hline := h.onLine_of_attached hdetached
  unfold frameEnd
  split
  · exact h
  · exact (hline.setLine _).bankInv
  · exact heardEnd_keepsBank _ _ _ hline
  · exact heardEnd_keepsBank _ _ _ hline
  · split
    · exact heardEnd_keepsBank _ _ _ hline
    · split
      · exact ownEnd_keepsBank _ _ _ _ hline
      · exact ownEnd_keepsBank _ _ _ _ hline
      · have hlost := loseArbitration_keepsBank [] hline
        simp only []
        split
        · next hreceiving => exact heardEnd_keepsBank _ _ _ (hlost.onLine_of_attached (by simp [hreceiving]))
        · exact hlost

/-! ## Idle, false start, abandoned frame and lost arbitration -/

theorem idleReached_keepsBank {s : State} (d : Bool) (h : BankInv s) : BankInv (idleReached d s) := by
  unfold idleReached
  split
  case h_1 hs | h_2 hs => exact (atIdle_onLine d (h.onLine_of_attached (by simp [hs]))).bankInv
  case h_3 | h_4 | h_5 => exact h

theorem falseStarted_keepsBank {s : State} (h : BankInv s) : BankInv (falseStarted s) := by
  unfold falseStarted
  split
  · next hedge =>
    have hattached : s.line.state ≠ .detached := by
      intro hs
      simp [Line.mayBeFalseStart, hs] at hedge
    exact (((h.onLine_of_attached hattached).setLine _).congr (bump_bankSide _ _)).bankInv
  · exact h

theorem frameAbandoned_keepsBank {s : State} (d : Bool) (h : BankInv s) : BankInv (frameAbandoned d s) := by
  unfold frameAbandoned
  split
  case h_1 hs | h_2 hs =>
    exact (atIdle_onLine d ((h.onLine_of_attached (by simp [hs])).congr (bump_bankSide _ _))).bankInv
  case h_3 | h_4 | h_5 => exact h

theorem arbitrationLostAt_keepsBank {s : State} (bit : Nat) (h : BankInv s) : BankInv (arbitrationLostAt bit s) := by
  unfold arbitrationLostAt
  split
  case h_1 hs =>
    split
    · split
      · exact loseArbitration_keepsBank _ (h.onLine_of_attached (by simp [hs]))
      · exact h
    · exact h
  case h_2 | h_3 | h_4 | h_5 => exact h

end Sys2Proof.Machine
end

section
/-! SUPPORT. That the host's commands, the port, the timers and a tick keep the laws of the pools and the queue, and the
statements about every step (R65, R74) and about the state after reset. -/

namespace Sys2Proof.Machine

/-! ## Resets (R192) -/

theorem resetPart_resting (inp : Inputs) (s : State) : Resting (resetPart inp s) := ⟨rfl, rfl, rfl, rfl, rfl, rfl⟩

theorem reset_resting : Resting State.reset := ⟨rfl, rfl, rfl, rfl, rfl, rfl⟩

/-! ## START STATION (R88, R89) -/

/-- A configuration that passes has a station id of the table (R38, R88). -/
theorem Settings.stationId_range {c : Settings} (h : c.firstBad = none) :
    1 ≤ c.stationId.toNat ∧ c.stationId.toNat ≤ 15 := by
  have hfind : (c.scalarChecks ++ c.classChecks).find? (fun x => !x.2) = none := by
    unfold Settings.firstBad at h
    split at h
    · cases h
    · assumption
  have hpass := List.find?_eq_none.mp hfind (0x010, inRange 1 15 c.stationId)
    (List.mem_append_left _ (by simp [Settings.scalarChecks]))
  simpa [inRange, Nat.one_le_iff_ne_zero] using hpass

/-- START STATION sets up the own record and gathers (R39, R89). -/
theorem startGathering_onLine {s : State} (h : 1 ≤ s.ownId ∧ s.ownId ≤ 15) : OnLine (startGathering s) := by
  refine enterGathering_onLine .start 0 ?_
  have hrec := s.table.rec?_put s.ownId s.ownId (some { seq := s.out.seq - 1, lease := .stopped, holding := .none })
  rw [if_pos ⟨rfl, h⟩] at hrec
  exact congrArg Option.isSome hrec

theorem startStation_keepsBank {s : State} (h : BankInv s) : BankInv (startStation s).1 := by
  unfold startStation
  split
  · split
    · exact h
    · next hgood => exact (startGathering_onLine (Settings.stationId_range hgood)).bankInv
  · exact h

/-! ## The other host commands -/

theorem leaveStation_keepsBank {s : State} (h : BankInv s) : BankInv (leaveStation s).1 := by
  unfold leaveStation
  split
  · next hs =>
    split
    · exact h
    · have hline := h.onLine (by simp [hs])
      have hleaving : OnLine (s.setControl { s.control with
          station := .leaving, memberTimer := .stopped, awaited := some .leaveStation }) := ⟨by simp, hline.banked⟩
      exact (hleaving.congr (by simp)).bankInv
  · exact h

theorem rejoin_keepsBank {s : State} (h : BankInv s) : BankInv (rejoin s).1 := by
  unfold rejoin
  split
  · next hs =>
    refine (enterGathering_onLine _ _ ?_).bankInv
    exact (h.onLine (by simp [hs])).banked.present
  · next hs =>
    refine (enterGathering_onLine _ _ ?_).bankInv
    exact (h.onLine (by simp [hs])).banked.present
  all_goals exact h

/-- Every code's effects at its take keep the laws (R189). -/
theorem decideCode_keepsBank {s : State} (code : Byte) (h : BankInv s) : BankInv (decideCode code s).1 := by
  unfold decideCode
  split
  · exact startStation_keepsBank h
  split
  · exact leaveStation_keepsBank h
  split
  · exact rejoin_keepsBank h
  split
  · exact h.congr (loadCycle_bankSide s)
  split
  · exact h.congr (startCycle_bankSide s)
  split
  · exact h.congr (hold_bankSide s)
  split
  · exact h.congr (resume_bankSide s)
  split
  · exact h.congr (abortCycle_bankSide s)
  split
  · exact h.congr (clearFault_bankSide s)
  split
  · exact h.congr (snapshot_bankSide s)
  · exact h

theorem closeTransaction_keepsBank {s : State} (h : BankInv s) : BankInv (closeTransaction s) := by
  have hended := h.congr (endTransaction_bankSide s)
  unfold closeTransaction takeStored
  split
  · split
    · split
      · exact (resetPart_resting _ s).bankInv
      · split
        · exact h.congr (by simp)
        · exact (decideCode_keepsBank _ hended).congr (answered_bankSide ..)
    · exact hended
  all_goals exact hended

theorem discardCommand_keepsBank {s : State} (h : BankInv s) : BankInv (discardCommand s) := by
  unfold discardCommand
  split
  · exact closeTransaction_keepsBank (h.congr (setTxn_bankSide _ s))
  all_goals exact h.congr (by simp)

/-- A host command keeps the laws as its decision does (R188). -/
theorem hostCommand_keepsBank {s : State} (code : Byte) {act : State → State × Result}
    (hact : ∀ u, BankInv u → BankInv (act u).1) (h : BankInv s) : BankInv (hostCommand code act s) := by
  unfold hostCommand
  split
  · exact discardCommand_keepsBank h
  · exact (hact _ (h.congr (by simp))).congr (answered_bankSide ..)

/-! ## Byte times of the port (R181, R182) -/

/-- A store into the configuration finds the station OFFLINE, with nothing held in any pool (R87). -/
theorem writeConfig_keepsBank {s : State} (a : Nat) (v : Byte) (t : OpenTxn) (h : BankInv s) :
    BankInv (writeConfig a v t s) := by
  have hstored : ∀ c, s.control.station = .offline → BankInv (storeConfig c s) := by
    intro c hs
    obtain ⟨hdetached, hflight, hentry, hrecord, hqueue⟩ := h.offline hs
    exact Resting.bankInv ⟨hs, hdetached, hflight, hentry, hrecord, hqueue⟩
  unfold writeConfig
  split
  · exact h.congr (setTxn_bankSide _ s)
  · next hlocked => exact hstored _ (by simpa [State.locked] using hlocked)

theorem writeByte_keepsBank {s : State} (a : Nat) (v : Byte) (t : OpenTxn) (h : BankInv s) :
    BankInv (writeByte a v t s) := by
  unfold writeByte
  split
  · exact writeConfig_keepsBank a v t h
  split
  · exact h.congr (writeNextOut_bankSide v s)
  · exact h.congr (writeRegister_bankSide a v t s)

theorem innerByte_keepsBank {s : State} (b : SpiByte) (h : BankInv s) : BankInv (innerByte b s) := by
  have hlow := h.congr (State.setPort_bankSide s { s.port with sdo := .low })
  unfold innerByte
  split
  · exact h.congr (headerByte_bankSide ..)
  · unfold dataByte
    simp only []
    split
    · split
      · exact (writeByte_keepsBank _ _ _ hlow).congr (advanceAddr_bankSide _)
      · exact hlow
    · exact h.congr (by simp)
    · exact hlow
  all_goals exact h

theorem portByte_keepsBank {s : State} (b : SpiByte) (h : BankInv s) : BankInv (portByte b s) := by
  have hbegun : BankInv (if b.starts then beginHeader (closeTransaction s) else s) := by
    split
    · exact (closeTransaction_keepsBank h).congr (beginHeader_bankSide _)
    · exact h
  have hinner := innerByte_keepsBank b hbegun
  unfold portByte
  simp only []
  split
  · exact closeTransaction_keepsBank hinner
  · exact hinner

/-! ## Timers (R47 to R50) -/

theorem peerLeaseOut_keepsBank {s : State} (id : Nat) (h : BankInv s) : BankInv (peerLeaseOut id s) := by
  unfold peerLeaseOut
  split
  · next p hp =>
    split
    · next hrun =>
      obtain ⟨-, htakes, -⟩ := hrun
      have hline := h.onLine_of_takesPart htakes
      exact ((hline.setTable (hline.banked.put_same (q := { p with lease := .runOut }) hp rfl)).congr
        (postExpire_bankSide ..)).bankInv
    · exact h
  · exact h

theorem selfLeaseOut_keepsBank {s : State} (h : BankInv s) : BankInv (selfLeaseOut s) := by
  have htable : BankInv (s.setTable { s.table with selfLease := .runOut }) := h.congr (State.setTable_bankSide rfl rfl)
  unfold selfLeaseOut
  simp only []
  split
  · split
    · next hm => exact (resync_onLine _ (htable.onLine_of_takesPart (State.takesPart_of_isMember hm))).bankInv
    · exact htable
  · exact h

/-! ## A tick (R136, log 9) -/

@[simp] theorem Line.tick_state (l : Line) : l.tick.state = l.state := by
  unfold Line.tick
  split <;> rfl

/-- The clocks of the part touch leases and timers alone (R47). -/
theorem advanceTimers_keepsBank {s : State} (h : BankInv s) : BankInv (advanceTimers s) := by
  rcases (bankInv_iff s).mp h with hrest | hline
  · obtain ⟨hoff, hdetached, hflight, hentry, hrecord, hqueue⟩ := hrest
    have hrecords : s.table.tick.recs = Vector.replicate 15 none := by
      simp [Table.tick, hrecord]
    exact Resting.bankInv ⟨hoff, (s.line.tick_state).trans hdetached, hflight, hentry, hrecords, hqueue⟩
  · exact OnLine.bankInv ⟨hline.joined, hline.banked.tick⟩

/-- Every event of time keeps the laws (log 9). -/
theorem timeEvents_keepBank {e : TimeEvent} (he : e ∈ timeEvents) {s : State} (h : BankInv s) :
    BankInv (e.act s) := by
  simp only [timeEvents, List.mem_append, List.mem_map, List.mem_cons, List.not_mem_nil, or_false] at he
  rcases he with (rfl | ⟨i, -, rfl⟩) | rfl | rfl | rfl | rfl | rfl | rfl | rfl | rfl | rfl
  · exact h.congr (complete_bankSide s)
  · exact peerLeaseOut_keepsBank (i + 1) h
  · exact h.congr (renewalOut_bankSide s)
  · exact selfLeaseOut_keepsBank h
  · exact h.congr (windowOut_bankSide s)
  · exact rejoinTimeout_keepsBank h
  · exact h.congr (membershipTimeout_bankSide s)
  · exact h.congr (changeDoor_bankSide s)
  · exact h.congr (purgeRanOut_bankSide s)
  · exact h.congr (takeSample_bankSide _ s)
  · exact idleReached_keepsBank false h

theorem fireAll_keepsBank : ∀ (es : List TimeEvent), es ⊆ timeEvents → ∀ {s : State}, BankInv s →
    BankInv (es.foldl TimeEvent.fire s)
  | [], _, _, h => h
  | e :: rest, hsub, s, h => by
    obtain ⟨he, hrest⟩ := List.cons_subset.mp hsub
    refine fireAll_keepsBank rest hrest ?_
    unfold TimeEvent.fire
    split
    · exact (timeEvents_keepBank he h).congr (refresh_bankSide _)
    · exact h

theorem tick_keepsBank {s : State} (h : BankInv s) : BankInv (tick s) := by
  have hfired := fireAll_keepsBank timeEvents (List.Subset.refl _) (advanceTimers_keepsBank h)
  refine hfired.congr ?_
  unfold tick firePhaseEnd phaseTimeUp
  rw [refresh_bankSide]
  split
  · split
    · exact durationReached_bankSide _
    · exact limitReached_bankSide _
  · rfl

/-! ## Every command -/

theorem finish_keepsBank {u t : State} (h : BankInv u) (he : finish u = .next t) : BankInv t := by
  cases he
  exact h.congr (refresh_bankSide u)

/-- Every command keeps the laws of the pools and the queue. -/
theorem exec_keepsBank {c : Instr} {s t : State} (h : BankInv s) (he : exec c s = .next t) : BankInv t := by
  have frame : ∀ k r void, finish (frameEnd k r void s) = .next t → BankInv t := fun k r void =>
    finish_keepsBank (frameEnd_keepsBank k r void h)
  have quiet : ∀ u : State, u.bankSide = s.bankSide → finish u = .next t → BankInv t := fun u hu =>
    finish_keepsBank (h.congr hu)
  have command : ∀ code (act : State → State × Result), (∀ u, (act u).1.bankSide = u.bankSide) →
      finish (hostCommand code act s) = .next t → BankInv t := fun code act hact =>
    finish_keepsBank (hostCommand_keepsBank code (fun u hu => hu.congr (hact u)) h)
  cases c with
  | startStation => exact finish_keepsBank (hostCommand_keepsBank _ (fun u => startStation_keepsBank) h) he
  | leaveStation => exact finish_keepsBank (hostCommand_keepsBank _ (fun u => leaveStation_keepsBank) h) he
  | rejoin => exact finish_keepsBank (hostCommand_keepsBank _ (fun u => rejoin_keepsBank) h) he
  | loadCycle => exact command _ _ loadCycle_bankSide he
  | startCycle => exact command _ _ startCycle_bankSide he
  | hold => exact command _ _ hold_bankSide he
  | resume => exact command _ _ resume_bankSide he
  | abortCycle => exact command _ _ abortCycle_bankSide he
  | clearFault => exact command _ _ clearFault_bankSide he
  | snapshotPeers => exact command _ _ snapshot_bankSide he
  | clearCounters =>
    refine finish_keepsBank ?_ he
    split
    · exact discardCommand_keepsBank h
    · exact h.congr (by simp)
  | restart inp =>
    refine finish_keepsBank ?_ he
    split
    · exact discardCommand_keepsBank h
    · exact (resetPart_resting inp s).bankInv
  | badCommand code =>
    refine finish_keepsBank ?_ he
    split
    · exact h.congr (endTransaction_bankSide s)
    · exact hostCommand_keepsBank _ (fun u hu => hu) h
  | powerOn inp | resetPin inp => exact finish_keepsBank (resetPart_resting inp s).bankInv he
  | configWrite b | nextOutWrite b | registerWrite b | readLatch b =>
    exact finish_keepsBank (portByte_keepsBank b h) he
  | idle d => exact finish_keepsBank (idleReached_keepsBank d h) he
  | falseStart => exact finish_keepsBank (falseStarted_keepsBank h) he
  | arbitrationLost bit => exact finish_keepsBank (arbitrationLostAt_keepsBank bit h) he
  | abandonedFrame d => exact finish_keepsBank (frameAbandoned_keepsBank d h) he
  | expire r | leave r | release r | claim r | rollcall r | standing r => exact frame _ r false he
  | undefinedKindFrame k r => exact frame k r false he
  | voidFrame k r => exact frame k r true he
  | peerLeaseTimeout peer => exact finish_keepsBank (peerLeaseOut_keepsBank peer.toNat h) he
  | renewalTimeout => exact quiet _ (renewalOut_bankSide s) he
  | selfLease => exact finish_keepsBank (selfLeaseOut_keepsBank h) he
  | rollcallWindowTimeout => exact quiet _ (windowOut_bankSide s) he
  | autoRejoin => exact finish_keepsBank (rejoinTimeout_keepsBank h) he
  | membershipTimeout => exact quiet _ (membershipTimeout_bankSide s) he
  | sampleSet inp => exact quiet _ (takeSample_bankSide inp s) he
  | doorEdge => exact quiet _ (edgeDoor_bankSide s) he
  | doorChange => exact quiet _ (changeDoor_bankSide s) he
  | purgeTimeout => exact quiet _ (purgeRanOut_bankSide s) he
  | phaseDurationReached => exact quiet _ (durationReached_bankSide s) he
  | phaseLimitReached => exact quiet _ (limitReached_bankSide s) he
  | completion => exact quiet _ (complete_bankSide s) he

/-- Settles O7: an empty queue is a tick, any other a command, and each keeps the laws on the line and OFFLINE. -/
theorem bankLawsKept : Obligations.BankLawsKept := by
  unfold Obligations.BankLawsKept
  intro s t h hstep
  unfold step at hstep
  split at hstep
  · cases hstep
    exact tick_keepsBank h
  · next c rest _ => exact exec_keepsBank (h.congr (State.setPending_bankSide s rest)) hstep

/-! ## The state after reset -/

/-- Settles O4: the loads after reset are those the Load Drive itself gives, nothing is on the line, the engine is calm,
and the staging memory lists nothing. -/
theorem resetIsSound : Obligations.ResetIsSound := by
  have hloads : refresh State.reset = State.reset := rfl
  have hcalm : Calm State.reset := ⟨rfl, rfl, rfl⟩
  exact ⟨hloads ▸ loadSafe_refresh State.reset, reset_resting.bankInv, hcalm.inv (by decide) (by decide), rfl,
    fun _ _ => rfl⟩

end Sys2Proof.Machine
end

section
/-! SUPPORT. A CLAIM of a peer (R67 to R72), and the statement about it. -/

namespace Sys2Proof.Machine

/-- A CLAIM that is not zero is refused for its form or for its size (R67, R69). -/
theorem Payload.refused_iff (c : Settings) (q : Payload) : q.Refused c ↔
    ¬ (q.p0 = 0 ∧ q.p1 = 0 ∧ q.p2 = 0) ∧
      ((63 < q.p0.toNat ∨ 31 < q.p1.toNat ∨ 1 < q.p2.toNat ∨ q.p3.toNat < 1 ∨ 7 < q.p3.toNat) ∨
        c.powerBudget.toNat < q.p0.toNat ∨ c.ventBudget.toNat < q.p1.toNat ∨ c.fillBudget.toNat < q.p2.toNat) := by
  simp only [Payload.Refused, or_assoc]

theorem applyHeard_claim (s : State) (r : Reading) : applyHeard (r.frame .claim) (s.afterHearing r) =
    ((s.heardRenewed r).setTable (((s.table.renew r.sender.toNat r.seq s.cfg.leaseTicks).claim s.cfg r.sender.toNat
      r.payload).scan s.cfg), none) := rfl

/-- Settles O42: the row leaves the scan of what the CLAIM made of the renewed table, and that is the settling of a
CLAIM by what its payload asks for. -/
theorem claimsAreSettled : Obligations.ClaimsAreSettled := by
  unfold Obligations.ClaimsAreSettled
  intro s r hh hwait hpeer id renewed given zero malformed
  obtain ⟨hheard, -, hkept, hloads⟩ := heardFrame_refresh (s := s) (r := r)
    (u := (s.heardRenewed r).setTable ((renewed.claim s.cfg id r.payload).scan s.cfg)) [] (by decide) (by simp)
    (by simp) (by simp [bumps]) (by simp)
  obtain ⟨hgivesUp, hsettles⟩ := renewed.claim_settles s.cfg id r.payload
  have hholding : renewed.holding id = s.table.holding id := s.table.holding_renew id id r.seq s.cfg.leaseTicks
  have hexec := exec_fromPeer hh hpeer (by decide) (applyHeard_claim s r) (.inl hwait)
  refine ⟨_, _, hexec, hheard, rfl, ⟨rfl, rfl, rfl⟩, rfl, hkept, hloads, fun h => hgivesUp ?unsound,
    fun a hnz hnm hpower hvent hfill hkind => ⟨fun hover => ?tooMuch, ?affordable⟩⟩
  case unsound =>
    by_cases hz : zero
    · exact .inl hz
    · exact .inr ((r.payload.refused_iff s.cfg).mpr ⟨hz, .inl (h.resolve_left hz)⟩)
  case tooMuch =>
    rw [hpower, hvent, hfill] at hover
    exact hgivesUp (.inr ((r.payload.refused_iff s.cfg).mpr ⟨hnz, .inr hover⟩))
  case affordable =>
    intro hpowerFits hventFits hfillFits
    rw [hpower] at hpowerFits
    rw [hvent] at hventFits
    rw [hfill] at hfillFits
    have hsound : ¬ r.payload.Refused s.cfg := by
      intro hrefused
      obtain ⟨-, hm | hover⟩ := (r.payload.refused_iff s.cfg).mp hrefused
      · exact hnm hm
      · omega
    have hcase := hsettles a hnz hsound hpower hvent hfill hkind
    rw [hholding] at hcase
    exact hcase

end Sys2Proof.Machine
end

section
/-! SUPPORT. The notification ADMITTED at the engine (R131, R142), a heard frame whose scan may have admitted the
waiting own record (R80, R84), and the statement about it. -/

namespace Sys2Proof.Machine

/-! ## ADMITTED (R131, R142) -/

/-- An ADMITTED share covers a request in every pool (R123). -/
theorem Holding.coversRequest_iff {h : Holding} {b : Share} (hb : h = .admitted b) (req : Share) :
    h.coversRequest req = true ↔ req.power ≤ b.power ∧ req.vent ≤ b.vent ∧ req.fill ≤ b.fill := by
  subst hb
  simp [Holding.coversRequest, Share.covers, and_assoc]

theorem Holding.isAdmitted_iff {h : Holding} : h.isAdmitted = true ↔ ∃ b, h = .admitted b := by
  cases h <;> simp [Holding.isAdmitted]

/-- A covered request makes a CLAIMING or WAITING engine ACTIVE (R131). -/
theorem notify_admitted_activates {s : State}
    (h : s.engine.state = .running .claiming ∨ s.engine.state = .running .waiting)
    (hc : s.own.coversRequest s.engine.current.request = true) :
    notify .admitted s = (s.setEngine { s.engine with state := .running .active }).setOut s.out := by
  have hactive : notify .admitted s = setSub .active s := by
    rcases h with h | h <;> simp [notify, noticeAdmitted, h, hc]
  exact hactive

/-- An uncovered request is claimed again by an engine that waits or is ACTIVE (R131). -/
theorem notify_admitted_claims {s : State} (hm : s.isMember = true)
    (h : s.engine.state = .running .waiting ∨
      (s.engine.state = .running .active ∧ s.engine.current.request.isZero = false))
    (hc : s.own.coversRequest s.engine.current.request = false) :
    notify .admitted s = (s.setEngine { s.engine with state := .running .claiming }).setOut
      (s.out.post .intent (.claim s.engine.current.request)) := by
  have hclaim : notify .admitted s = postClaim (setSub .claiming s) := by
    rcases h with h | ⟨h, hzero⟩ <;> simp [notify, noticeAdmitted, *]
  exact hclaim.trans (postIntent_of_member (s := setSub .claiming s) _ hm)

/-- A running purge ends when the own record holds no vent units (R142). -/
theorem notify_admitted_endsPurge {s : State} (h : s.engine.state = .held) (hpurge : s.engine.purge.isRunning = true)
    (hvent : s.own.holdsVent = false) :
    notify .admitted s = (s.setEngine { s.engine with purge := .stopped }).setOut s.listReleased := by
  have hend : notify .admitted s = endPurge s := by simp [notify, noticeHeld, h, hpurge, hvent]
  rw [hend]
  exact giveUpShare_eq _

/-- The states in which ADMITTED finds nothing to do (R131, R142, R151). -/
def State.IdlesOnAdmitted (s : State) : Prop :=
  (s.engine.state = .running .claiming ∧ s.own.coversRequest s.engine.current.request = false) ∨
  (s.engine.state = .running .active ∧
    (s.own.coversRequest s.engine.current.request = true ∨ s.engine.current.request.isZero = true)) ∨
  s.engine.state = .running .regain ∨
  (s.engine.state = .held ∧ (s.engine.purge.isRunning = false ∨ s.own.holdsVent = true)) ∨
  s.engine.state.underWay = false

theorem notify_admitted_stays {s : State} (h : s.IdlesOnAdmitted) : notify .admitted s = s := by
  rcases h with ⟨h, hc⟩ | ⟨h, hc | hzero⟩ | h | ⟨h, hpurge | hvent⟩ | h
  · simp [notify, noticeAdmitted, h, hc]
  · simp [notify, noticeAdmitted, h, hc]
  · simp [notify, noticeAdmitted, h, hzero]
  · simp [notify, noticeAdmitted, h]
  · simp [notify, noticeHeld, h, hpurge]
  · simp [notify, noticeHeld, h, hvent]
  · cases hs : s.engine.state <;> simp_all [notify, EngineState.underWay]

/-- ADMITTED at a MEMBER changes the engine and the list alone (R131, R142). -/
theorem notify_admitted_changes {s : State} (hm : s.isMember = true) :
    ∃ e o, notify .admitted s = (s.setEngine e).setOut o := by
  have stays : s.IdlesOnAdmitted → ∃ e o, notify .admitted s = (s.setEngine e).setOut o := fun h =>
    ⟨s.engine, s.out, notify_admitted_stays h⟩
  cases hs : s.engine.state with
  | running b =>
    cases hc : s.own.coversRequest s.engine.current.request with
    | true =>
      cases b with
      | claiming => exact ⟨_, _, notify_admitted_activates (.inl hs) hc⟩
      | waiting => exact ⟨_, _, notify_admitted_activates (.inr hs) hc⟩
      | active => exact stays (.inr (.inl ⟨hs, .inl hc⟩))
      | regain => exact stays (.inr (.inr (.inl hs)))
    | false =>
      cases b with
      | claiming => exact stays (.inl ⟨hs, hc⟩)
      | waiting => exact ⟨_, _, notify_admitted_claims hm (.inl hs) hc⟩
      | active =>
        cases hzero : s.engine.current.request.isZero with
        | true => exact stays (.inr (.inl ⟨hs, .inr hzero⟩))
        | false => exact ⟨_, _, notify_admitted_claims hm (.inr ⟨hs, hzero⟩) hc⟩
      | regain => exact stays (.inr (.inr (.inl hs)))
  | held =>
    cases hpurge : s.engine.purge.isRunning with
    | false => exact stays (.inr (.inr (.inr (.inl ⟨hs, .inl hpurge⟩))))
    | true =>
      cases hvent : s.own.holdsVent with
      | true => exact stays (.inr (.inr (.inr (.inl ⟨hs, .inr hvent⟩))))
      | false => exact ⟨_, _, notify_admitted_endsPurge hs hpurge hvent⟩
  | idle | loaded | faulted | complete => exact stays (.inr (.inr (.inr (.inr (by rw [hs]; rfl)))))

/-- ADMITTED at a MEMBER with this ADMITTED share (R131, R142). -/
theorem notify_admitted_of_member {s : State} {b : Share} (hm : s.isMember = true) (hown : s.own = .admitted b) :
    let req := s.engine.current.request
    let covered : Prop := req.power ≤ b.power ∧ req.vent ≤ b.vent ∧ req.fill ≤ b.fill
    ∃ e o, notify .admitted s = (s.setEngine e).setOut o ∧
      (s.engine.state = .running .claiming ∨ s.engine.state = .running .waiting → covered →
        e = { s.engine with state := .running .active } ∧ o = s.out) ∧
      (s.engine.state = .running .claiming → ¬ covered → e = s.engine ∧ o = s.out) ∧
      (s.engine.state = .running .waiting → ¬ covered →
        e = { s.engine with state := .running .claiming } ∧ o = s.out.post .intent (.claim req)) ∧
      (s.engine.state = .running .regain ∨ s.engine.state.underWay = false ∨
        (s.engine.state = .held ∧ s.engine.purge.isRunning = false) → e = s.engine ∧ o = s.out) := by
  intro req covered
  have hcovers := Holding.coversRequest_iff hown req
  obtain ⟨e, o, h⟩ := notify_admitted_changes hm
  have left_of : ∀ e' o', notify .admitted s = (s.setEngine e').setOut o' → e = e' ∧ o = o' := by
    intro e' o' h'
    have hsame : (s.setEngine e).setOut o = (s.setEngine e').setOut o' := h.symm.trans h'
    exact ⟨congrArg State.engine hsame, congrArg State.out hsame⟩
  have stays : s.IdlesOnAdmitted → e = s.engine ∧ o = s.out := fun hi => left_of _ _ (notify_admitted_stays hi)
  have uncovered : ¬ covered → s.own.coversRequest req = false := fun hn =>
    Bool.eq_false_iff.mpr fun hc => hn (hcovers.mp hc)
  refine ⟨e, o, h, fun hs hc => left_of _ _ (notify_admitted_activates hs (hcovers.mpr hc)),
    fun hs hn => stays (.inl ⟨hs, uncovered hn⟩),
    fun hs hn => left_of _ _ (notify_admitted_claims hm (.inl hs) (uncovered hn)), fun hs => ?_⟩
  rcases hs with hs | hs | ⟨hs, hpurge⟩
  · exact stays (.inr (.inr (.inl hs)))
  · exact stays (.inr (.inr (.inr (.inr hs))))
  · exact stays (.inr (.inr (.inr (.inl ⟨hs, .inl hpurge⟩))))

/-! ## Who is told of a heard frame (R80, R84) -/

/-- A MEMBER whose waiting record was admitted by a heard frame has GRANT and then ADMITTED (R80, R84). -/
theorem noticeHeard_of_admitted {s : State} {b : Share} (hm : s.isMember = true) (hown : s.own = .admitted b) :
    noticeHeard true s = notify .admitted (emit .grant s.ownId b.power b.vent b.fill b.kind.code s) := by
  simp [noticeHeard, hm, hown, Holding.isAdmitted, grant]

/-- A record still WAITING, or a station that is not MEMBER, gives no notification (R80). -/
theorem noticeHeard_of_not {s : State} (w : Bool) (h : s.isMember = false ∨ s.own.isAdmitted = false) :
    noticeHeard w s = s := by
  rcases h with h | h <;> simp [noticeHeard, h]

/-! ## The frames after which the own record can be admitted -/

/-- A state that a delivered frame left with this table, ring and list, before the engine is told (R80). -/
structure LeftByFrame (s : State) (r : Reading) (after : Table) (ring : Ring) (out : OutList) (v : State) : Prop where
  line : v.line = (s.afterHearing r).line
  control : v.control = (s.afterHearing r).control
  counters : v.port.counters = (s.afterHearing r).port.counters
  outside : v.outside = s.outside
  engine : v.engine = s.engine
  fault : v.fault = s.fault
  table : v.table = after
  ring : v.port.ring = ring
  out : v.out = out

section
variable {s v : State} {r : Reading} {t : Table} {ring : Ring} {out : OutList}

theorem LeftByFrame.cfg (h : LeftByFrame s r t ring out v) : v.cfg = s.cfg := outside_cfg h.outside

theorem LeftByFrame.ownId (h : LeftByFrame s r t ring out v) : v.ownId = s.ownId := by
  rw [State.ownId, h.cfg, State.ownId]

theorem LeftByFrame.station (h : LeftByFrame s r t ring out v) : v.control.station = s.control.station := by
  rw [h.control, State.afterHearing_control]

theorem LeftByFrame.own (h : LeftByFrame s r t ring out v) : v.own = t.holding s.ownId := by
  rw [State.own, h.table, h.ownId]

theorem LeftByFrame.setTable (h : LeftByFrame s r t ring out v) (t' : Table) :
    LeftByFrame s r t' ring out (v.setTable t') :=
  ⟨h.line, h.control, h.counters, h.outside, h.engine, h.fault, rfl, h.ring, h.out⟩

/-- The removal of a peer is reported before the scan (R41, R77). -/
theorem LeftByFrame.peerRemoved (h : LeftByFrame s r t ring out v) (id cause : Nat) :
    LeftByFrame s r ((t.remove id).scan s.cfg) (ring.after .memberRemoved id cause 0 0 0) out
      (removePeer id cause v) := by
  rw [removePeer_eq, h.table, h.cfg]
  exact ⟨h.line, h.control, h.counters, h.outside, h.engine, h.fault, rfl, by simp [h.ring], h.out⟩

end

theorem State.heardRenewed_left (s : State) (r : Reading) :
    LeftByFrame s r (s.table.renew r.sender.toNat r.seq s.cfg.leaseTicks) s.port.ring (s.out.withdraw r.sender.toNat)
      (s.heardRenewed r) := by
  constructor <;> simp

theorem State.heardExpire_left (s : State) (r : Reading) :
    LeftByFrame s r (s.table.renew r.sender.toNat r.seq s.cfg.leaseTicks) s.port.ring
      ((s.out.withdraw r.sender.toNat).withdraw r.payload.p0.toNat) (s.heardExpire r) := by
  constructor <;> simp

/-- The row of a delivered frame without a finding, for a station whose own record waits (R80). -/
theorem exec_heardFrame_waiting {s v : State} {r : Reading} {k : FrameKind} (hh : Hearing s)
    (hwait : s.own.isWaiting = true) (hf : r.finding k.code = false)
    (hcore : takeHeardCore (r.frame k) (s.afterHearing r) = (v, none)) :
    exec (k.row r) s = .next (refresh (noticeHeard true v)) := by
  rw [exec_heardFrame hh hf, takeHeard, hcore, State.afterHearing_own, hwait]

/-- A ROLLCALL of a PRESENT peer with the bank's budgets resets its sender and opens the window (R55, R56). -/
theorem exec_rollcall_waiting {s : State} {r : Reading} {p : Rec} (hh : Hearing s) (hwait : s.own.isWaiting = true)
    (hf : r.finding FrameKind.rollcall.code = false) (h0 : r.sender.toNat ≠ 0) (hown : r.sender.toNat ≠ s.ownId)
    (hp : s.table.rec? r.sender.toNat = some p) (hb : r.payload.SameBudgets s.cfg) :
    ∃ v, exec (.rollcall r) s = .next (refresh (noticeHeard true v)) ∧
      LeftByFrame s r ((((s.table.renew r.sender.toNat r.seq s.cfg.leaseTicks).giveUp r.sender.toNat).scan
          s.cfg).opened s.line.rate) s.port.ring
        (if s.control.station = .member then (s.out.withdraw r.sender.toNat).post .standing .standing
          else s.out.withdraw r.sender.toNat) v := by
  have hcore := takeHeardCore_rollcall (f := r.frame .rollcall) (s := s.afterHearing r) hown h0 rfl
  rw [rollcallPeer_reset (f := r.frame .rollcall) (s := s.afterHearing r) hp hb, openWindow_eq] at hcore
  exact ⟨_, exec_heardFrame_waiting (k := .rollcall) hh hwait hf hcore, rfl, rfl, rfl, rfl, rfl, rfl, rfl, rfl, rfl⟩

/-- Every other kind that can empty a pool acts on the renewed table (R51, R54, R71, R73). -/
theorem exec_fromPeer_waiting {s v : State} {r : Reading} {k : FrameKind} (hh : Hearing s)
    (hwait : s.own.isWaiting = true) (hpeer : FromPeer k r s) (hk : k ≠ .rollcall)
    (happly : applyHeard (r.frame k) (s.afterHearing r) = (v, none)) :
    exec (k.row r) s = .next (refresh (noticeHeard true v)) := by
  have ⟨hf, _⟩ := hpeer
  exact exec_heardFrame_waiting hh hwait hf ((takeHeardCore_of_fromPeer hpeer hk).trans happly)

/-! ## The statement -/

/-- Settles O43: each kind leaves its table, ring and list, and then the engine is told or not as R80 says. -/
theorem heardFrameAdmitsOwn : Obligations.HeardFrameAdmitsOwn := by
  unfold Obligations.HeardFrameAdmitsOwn
  intro s r row after ring out hh hwait id target renewed hrow
  have hleft : ∃ v, exec row s = .next (refresh (noticeHeard true v)) ∧ LeftByFrame s r after ring out v := by
    rcases hrow with ⟨rfl, hpeer, rfl, rfl, rfl⟩ | ⟨rfl, hpeer, rfl, rfl, rfl⟩ | ⟨rfl, hpeer, rfl, rfl, rfl⟩ |
      ⟨rfl, hpeer, htarget, ⟨p, hp, hq⟩, rfl, rfl, rfl⟩ | ⟨rfl, hf, h0, hown, ⟨p, hp⟩, hb, rfl, rfl, rfl⟩
    · exact ⟨_, exec_fromPeer_waiting hh hwait hpeer (by decide) (applyHeard_release s r),
        (s.heardRenewed_left r).setTable _⟩
    · exact ⟨_, exec_fromPeer_waiting hh hwait hpeer (by decide) (applyHeard_leave s r),
        (s.heardRenewed_left r).peerRemoved _ _⟩
    · exact ⟨_, exec_fromPeer_waiting hh hwait hpeer (by decide) (applyHeard_claim s r),
        (s.heardRenewed_left r).setTable _⟩
    · have happly := applyHeard_expire s r
      rw [applyExpire_removes (s := s.heardExpire r) _ hp hq htarget] at happly
      exact ⟨_, exec_fromPeer_waiting hh hwait hpeer (by decide) happly, (s.heardExpire_left r).peerRemoved _ _⟩
    · exact exec_rollcall_waiting hh hwait hf h0 hown hp hb
  obtain ⟨v, hexec, hv⟩ := hleft
  by_cases htold : s.control.station = .member ∧ (after.holding s.ownId).isAdmitted = true
  case neg =>
    have hquiet : noticeHeard true v = v := by
      refine noticeHeard_of_not true ?_
      rw [hv.own, State.isMember, hv.station]
      by_cases hm : s.control.station = .member
      · exact .inr (Bool.eq_false_iff.mpr fun ha => htold ⟨hm, ha⟩)
      · exact .inl (by simpa using hm)
    rw [hquiet] at hexec
    obtain ⟨hheard, -, hkept, hloads⟩ := heardFrame_refresh (s := s) (r := r) (u := v) [] (by decide) hv.line
      hv.control hv.counters hv.outside
    exact ⟨_, hexec, hheard, hv.table, hkept, hloads, hv.fault,
      fun b hb hm => absurd ⟨hm, by rw [hb]; rfl⟩ htold, fun _ => ⟨hv.ring, hv.engine, hv.out⟩⟩
  case pos =>
    obtain ⟨hm, hadmitted⟩ := htold
    obtain ⟨b, hb⟩ := Holding.isAdmitted_iff.mp hadmitted
    have hmember : v.isMember = true := v.isMember_iff.mpr (hv.station.trans hm)
    have hgranted := noticeHeard_of_admitted hmember (hv.own.trans hb)
    obtain ⟨e, o, hnotify, hengine⟩ := notify_admitted_of_member
      (s := emit .grant v.ownId b.power b.vent b.fill b.kind.code v) hmember (hv.own.trans hb)
    simp only [emit_engine, emit_out, hv.engine, hv.out] at hengine
    rw [hgranted, hnotify] at hexec
    obtain ⟨hheard, -, hkept, hloads⟩ := heardFrame_refresh (s := s) (r := r)
      (u := ((emit .grant v.ownId b.power b.vent b.fill b.kind.code v).setEngine e).setOut o) [] (by decide) hv.line
      hv.control hv.counters hv.outside
    refine ⟨_, hexec, hheard, hv.table, hkept, hloads, hv.fault, fun b' hb' _ => ?_, fun hno => ?_⟩
    · rw [hb] at hb'
      cases hb'
      exact ⟨by simp [hv.ring, hv.ownId], hengine⟩
    · rw [hb] at hno
      simp [Holding.isWaiting, hm] at hno

end Sys2Proof.Machine
end

section
/-! SUPPORT. The clearing of the table, the emptying of the list and the withdrawal of a restart read out (R29, R36,
R40, R94), the report of an objection (R97, R98), and the statement about the transitions built from them. -/

namespace Sys2Proof.Machine

/-! ## Clearing the table (R36, R39, R40) -/

/-- A clearing touches the records, the queue and the window alone. -/
theorem Table.clear_eq (t : Table) (own : Nat) :
    t.clear own = { t with recs := (t.clear own).recs, queue := [], windowOpen := false, windowTimer := .stopped } := by
  unfold Table.clear Table.put
  split <;> rfl

/-- After the clearing on entry into OFFLINE no record is PRESENT (R40). -/
theorem Table.rec?_clearAll (t : Table) (id : Nat) : t.clearAll.rec? id = none :=
  (Table.rec?_congr (u := Table.reset) rfl id).trans (Table.reset_rec? id)

/-! ## Emptying the list and withdrawing from it (R29, R36, R94) -/

theorem OutList.slot_emptied (o : OutList) (id : SlotId) : o.emptied.slot id = ⟨none, none⟩ := by
  cases id with
  | expire x => simp [OutList.emptied, OutList.slot, Slot.empty]
  | leave | intent | rollcall | standing => rfl

/-- A withdrawal of every EXPIRE empties the slots of this kind, but for one in flight (R94). -/
theorem OutList.slot_withdrawAll_expire (o : OutList) (x : Nat) : o.withdrawAll.slot (.expire x) =
    if o.flight = some (.expire x) then o.slot (.expire x) else ⟨none, none⟩ := by
  have hcleared : ({ o with expires := Vector.replicate 15 Slot.empty } : OutList).slot (.expire x) = ⟨none, none⟩ := by
    simp [OutList.slot, Slot.empty]
  unfold OutList.withdrawAll
  split
  case h_1 t hf =>
    by_cases hx : x = t
    · subst hx
      rw [if_pos hf]
      by_cases hrange : 1 ≤ x ∧ x ≤ 15 <;> simp [OutList.slot, OutList.setSlot, hrange]
    · have hne : SlotId.expire x ≠ .expire t := by simpa using hx
      have hother : o.flight ≠ some (.expire x) := by
        rw [hf]; simpa using fun e => hx e.symm
      rw [if_neg hother, OutList.slot_setSlot_ne _ _ hne, hcleared]
  case h_2 hf => rw [if_neg (hf x), hcleared]

theorem OutList.setSlot_expire_eq (o : OutList) (x : Nat) (sl : Slot) :
    o.setSlot (.expire x) sl = { o with expires := (o.setSlot (.expire x) sl).expires } := by
  by_cases hrange : 1 ≤ x ∧ x ≤ 15 <;> simp [OutList.setSlot, hrange]

/-- A withdrawal of every EXPIRE changes the EXPIRE slots alone (R94). -/
theorem OutList.withdrawAll_eq (o : OutList) : o.withdrawAll = { o with expires := o.withdrawAll.expires } := by
  unfold OutList.withdrawAll
  split
  · exact OutList.setSlot_expire_eq ..
  · rfl

theorem OutList.slot_withdrawAll_of_ne (o : OutList) {id : SlotId} (h : ∀ x, id ≠ .expire x) :
    o.withdrawAll.slot id = o.slot id := by
  rw [o.withdrawAll_eq]
  cases id with
  | expire x => exact absurd rfl (h x)
  | leave | intent | rollcall | standing => rfl

/-! ## Transitions (R94, R95, R99) -/

/-- A restart of gathering has the effects of R90 with every pending EXPIRE withdrawn (R94). -/
theorem restartGathering_entersGathering (finding : Cause) (s : State) :
    EntersGathering .gatherRestart finding.code s.out.withdrawAll s (refresh (restartGathering finding s)) := by
  have houtside : (restartGathering finding s).outside = s.outside := restartGathering_outside finding s
  have hbase := keepsBase_refresh houtside
  have hloads := loadsFollow_refresh houtside
  rw [restartGathering_eq] at hbase hloads ⊢
  exact ⟨rfl, rfl, rfl, rfl, rfl, rfl, rfl, rfl, hbase, hloads⟩

theorem resync_counters (cause : Cause) (s : State) :
    (resync cause s).port.counters = (bump .resyncs s).port.counters := by
  rw [resync_eq]
  rfl

theorem restartGathering_counters (finding : Cause) (s : State) :
    (restartGathering finding s).port.counters = (bump .gatherRestarts s).port.counters := by
  rw [restartGathering_eq]
  rfl

theorem isolate_line (cause : Cause) (s : State) : (isolate cause s).line = s.line := by
  rw [isolate_eq]
  rcases completeJoin_cases cause _ with h | ⟨a, h⟩
  all_goals
    rw [h]
    rfl

/-- The events of an isolation: STATION_STATE, GRANT_LOST, and COMMAND_DONE where a join is awaited (R85, R99, R106). -/
theorem isolate_ring (cause : Cause) (s : State) : (isolate cause s).port.ring =
    match s.control.awaited with
    | some .startStation => (s.ringMoved .isolated cause s.control.rejoins).after .commandDone s.ownId 1 4 cause.code 0
    | some .rejoin => (s.ringMoved .isolated cause s.control.rejoins).after .commandDone s.ownId 3 4 cause.code 0
    | some .leaveStation => s.ringMoved .isolated cause s.control.rejoins
    | none => s.ringMoved .isolated cause s.control.rejoins := by
  rw [isolate_eq]
  unfold completeJoin
  dsimp only
  cases s.control.awaited with
  | none => rfl
  | some a => cases a <;> rfl

/-! ## The report of an objection (R97, R98) -/

/-- The sixteenth objection in a row is DEAF (R97). -/
theorem reportObjection_of_sixteenth {s : State} (hp : s.control.station.takesPart = true) (hrun : s.control.run = 15) :
    reportObjection s = failed .deaf (s.setControl { s.control with run := 16 }) := by
  simp [reportObjection, hp, hrun]

/-- A shorter run is only counted (R97). -/
theorem reportObjection_of_short {s : State} (hp : s.control.station.takesPart = true) (hrun : s.control.run < 15) :
    reportObjection s = s.setControl { s.control with run := s.control.run + 1 } := by
  have hshort : ¬ 16 ≤ s.control.run + 1 := by omega
  simp [reportObjection, hp, hshort]

/-- DEAF takes a GATHERING or MEMBER station to ISOLATED (R98, R99). -/
theorem reportObjection_entersIsolated {s : State} (hs : s.control.station = .gathering ∨ s.control.station = .member)
    (hrun : s.control.run = 15) : EntersIsolated .deaf s (reportObjection s) := by
  have hp : s.control.station.takesPart = true := by rcases hs with h | h <;> rw [h] <;> rfl
  rw [reportObjection_of_sixteenth hp hrun, failed_of_joined (s := s.setControl { s.control with run := 16 }) .deaf hs]
  exact (isolate_entersIsolated .deaf (s.setControl { s.control with run := 16 }) :)

/-- DEAF takes a LEAVING station to OFFLINE (R98, R104). -/
theorem reportObjection_of_leaving {s : State} (hs : s.control.station = .leaving) (hrun : s.control.run = 15) :
    reportObjection s = goOffline .deaf (s.setControl { s.control with run := 16 }) := by
  rw [reportObjection_of_sixteenth (by rw [hs]; rfl) hrun,
    failed_of_leaving (s := s.setControl { s.control with run := 16 }) .deaf hs]

/-! ## The statement -/

/-- Settles O40: the transitions are their equations, and clearing, emptying and withdrawing are read record by record
and slot by slot. -/
theorem resyncRestartIsolate : Obligations.ResyncRestartIsolate := by
  unfold Obligations.ResyncRestartIsolate
  refine ⟨fun s c => ⟨fun _ => ?resync, fun _ => ?restart, fun _ => ?isolate⟩,
    fun s => ⟨reportObjection_entersIsolated, fun hs hrun => ?offline, reportObjection_of_short, fun hp => ?absent⟩,
    fun t own => ⟨?ownRecord, fun j hj => ?otherRecord, t.clear_eq own, t.rec?_clearAll, rfl⟩,
    fun o => ⟨o.slot_emptied, rfl, rfl, rfl, o.slot_withdrawAll_expire, fun _ => o.slot_withdrawAll_of_ne, ?list⟩⟩
  case resync =>
    refine ⟨resync_entersGathering c s, counter_of_bump (resync_counters c s),
      keepsCounters_of_bump (resync_counters c s), ?_⟩
    rw [resync_eq]
  case restart =>
    refine ⟨restartGathering_entersGathering c s, counter_of_bump (restartGathering_counters c s),
      keepsCounters_of_bump (restartGathering_counters c s), ?_⟩
    rw [restartGathering_eq]
  case isolate =>
    exact ⟨isolate_entersIsolated c s, isolate_line c s, (isolate_keeps c s).counters, isolate_ring c s⟩
  case offline =>
    rw [reportObjection_of_leaving hs hrun]
    rcases goOffline_cases .deaf (s.setControl { s.control with run := 16 }) with h | h
    all_goals
      rw [h]
      exact ⟨rfl, rfl, rfl, rfl, rfl, rfl, rfl⟩
  case absent => simp [reportObjection, hp]
  case ownRecord => rw [t.rec?_clear, if_pos rfl]
  case otherRecord => rw [t.rec?_clear, if_neg hj]
  case list =>
    rw [o.withdrawAll_eq]
    exact ⟨rfl, rfl, rfl⟩

end Sys2Proof.Machine
end

section
/-! SUPPORT. A host command that finds the code field free (R187, R188): the state it is taken in, what its answer
leaves, and the statement about LEAVE STATION and REJOIN (R96, R103). -/

namespace Sys2Proof.Machine

/-! ## The take (R187, R188) -/

/-- The state a command is taken in: its code stands in the code field, its transaction is over and counted. -/
def State.atTake (s : State) (code : Byte) : State :=
  s.setPort { s.port with
    code := code, txn := .closed, sdo := .highZ, counters := (endTransaction s).port.counters }

theorem endTransaction_storeCode_eq (code : Byte) (s : State) : endTransaction (storeCode code s) = s.atTake code := by
  rw [endTransaction_storeCode]
  unfold State.atTake endTransaction endCounts
  simp only []
  repeat' split
  all_goals rfl

theorem hostCommand_of_free {s : State} {code : Byte} {act : State → State × Result}
    (hfree : codeRefused code s = false) :
    hostCommand code act s = answered (act (s.atTake code)).2 (act (s.atTake code)).1 := by
  simp only [hostCommand, hfree, Bool.false_eq_true, if_false, endTransaction_storeCode_eq]

/-- The Load Drive follows a state whose outputs are still the old ones. -/
theorem loadsFollow_refresh_of_load {s u : State} (h : u.load = s.load) : LoadsFollow s (refresh u) := by
  have hl : ({ refresh u with load := s.load } : State) = u := by rw [← h]; rfl
  unfold LoadsFollow
  rw [hl]
  rfl

/-- Effects within the mask of Laws/Outside.lean leave the answer to come and the base (R188). -/
theorem answered_refresh {s u : State} {code : Byte} (r : Result) (h : u.outside = (s.atTake code).outside) :
    Answers code r s (refresh (answered r u)) ∧ KeepsBase s (refresh (answered r u)) ∧
      LoadsFollow s (refresh (answered r u)) :=
  ⟨⟨(outside_code h :), rfl, (outside_result h :), (outside_txn h :), (outside_sdo h :), (outside_param1 h :),
      (outside_param2 h :), (outside_staging h :), (outside_view h :)⟩,
    ⟨(outside_pending h :), (outside_free h :), (outside_cfg h :)⟩, loadsFollow_refresh_of_load (outside_load h :)⟩

/-- A command whose decision changes nothing answers and does nothing else. -/
theorem answersOnly_of_unchanged {c : Instr} {code : Byte} {r : Result} {s : State} {act : State → State × Result}
    (hexec : exec c s = .next (refresh (hostCommand code act s))) (hfree : codeRefused code s = false)
    (hact : act (s.atTake code) = (s.atTake code, r)) : AnswersOnly c code r s := by
  rw [hostCommand_of_free hfree, hact] at hexec
  obtain ⟨hanswers, hbase, hloads⟩ := answered_refresh (s := s) (u := s.atTake code) r rfl
  exact ⟨_, hexec, hanswers, ⟨rfl, rfl⟩, hbase, ⟨rfl, rfl, rfl, rfl⟩, ⟨rfl, rfl, rfl⟩, hloads⟩

/-! ## The rows -/

theorem exec_startStation (s : State) :
    exec .startStation s = .next (refresh (hostCommand 0x01 startStation s)) := rfl
theorem exec_leaveStation (s : State) :
    exec .leaveStation s = .next (refresh (hostCommand 0x02 leaveStation s)) := rfl
theorem exec_rejoin (s : State) : exec .rejoin s = .next (refresh (hostCommand 0x03 rejoin s)) := rfl

/-! ## LEAVE STATION (R103) -/

theorem leaveStation_of_not_member {s : State} (hs : s.control.station ≠ .member) :
    leaveStation s = (s, .notMember) := if_neg hs

theorem leaveStation_of_busy {s : State} (hs : s.control.station = .member)
    (hbusy : s.own ≠ .none ∨ s.intentBusy ∨ s.engine.state.underWay) : leaveStation s = (s, .busy) := by
  have hbusy' : (s.own != .none || s.intentBusy || s.engine.state.underWay) = true := by simpa [or_assoc] using hbusy
  simp [leaveStation, hs, hbusy']

theorem leaveStation_of_free {s : State} (hs : s.control.station = .member) (hown : s.own = .none)
    (hintent : s.intentBusy = false) (hcycle : s.engine.state.underWay = false) :
    leaveStation s =
      ((stationEvent .member .leaveStation 0 (s.setControl { s.control with
        station := .leaving, memberTimer := .stopped, awaited := some .leaveStation })).setOut
          (s.out.post .leave .leave), .ok) := by
  simp only [leaveStation, hs, hown, hintent, hcycle, if_true, bne_self_eq_false, Bool.or_self, Bool.false_eq_true,
    if_false]
  rfl

/-! ## REJOIN (R96) -/

theorem rejoin_of_apart {s : State} (hmember : s.control.station ≠ .member)
    (hisolated : s.control.station ≠ .isolated) : rejoin s = (s, .wrongState) := by
  unfold rejoin
  split
  case h_1 h => exact absurd h hmember
  case h_2 h => exact absurd h hisolated
  all_goals rfl

theorem rejoin_of_member {s : State} (hs : s.control.station = .member) :
    rejoin s = (resync .rejoin (s.setControl { s.control with awaited := some .rejoin }), .ok) := by
  simp [rejoin, hs]

theorem rejoin_of_isolated {s : State} (hs : s.control.station = .isolated) : rejoin s =
    (enterGathering .rejoin 0 (s.setControl { s.control with
      awaited := some .rejoin, rejoinTimer := .stopped, isolation := none, rejoins := 0, run := 0 }), .ok) := by
  simp [rejoin, hs]

@[simp] theorem State.moved_line (s : State) (station : StationState) (cause : Cause) (q : Nat) :
    (s.moved station cause q).line = s.line := rfl

/-- Entry into GATHERING by a command at its take has the effects of R90 on the state the command found. -/
theorem EntersGathering.of_take {cause : Cause} {q : Nat} {list : OutList} {s v : State} {code : Byte} {c : Control}
    (r : Result) (h : EntersGathering cause q list ((s.atTake code).setControl c) (refresh v))
    (hstation : c.station = s.control.station) (houtside : v.outside = (s.atTake code).outside) :
    EntersGathering cause q list s (refresh (answered r v)) := by
  obtain ⟨hgathering, hanswered, htable, hengine, hring, hout, hmeas, hfault, hbase, -⟩ := h
  have hmoved : ((s.atTake code).setControl c).ringMoved .gathering cause q = s.ringMoved .gathering cause q := by
    unfold State.ringMoved
    rw [State.setControl_control, hstation]
    rfl
  exact ⟨hgathering, hanswered, htable, hengine, hring.trans hmoved, hout, hmeas, hfault, hbase,
    loadsFollow_refresh_of_load (outside_load houtside :)⟩

/-- REJOIN of a MEMBER is a resync (R95, R96). -/
theorem exec_rejoin_of_member {s : State} (hfree : codeRefused 0x03 s = false) (hs : s.control.station = .member) :
    ∃ t, exec .rejoin s = .next t ∧ Answers 0x03 .ok s t ∧ EntersGathering .rejoin 0 s.out.emptied s t ∧
      t.line = s.line ∧
      t.control = { s.control with
        station := .gathering, answered := false, memberTimer := .stopped, awaited := some .rejoin } ∧
      t.counter .resyncs = satInc ((endTransaction s).counter .resyncs) := by
  let u := (s.atTake 0x03).setControl { s.control with awaited := some .rejoin }
  have houtside := resync_outside .rejoin u
  have hgathers := (resync_entersGathering .rejoin u).of_take (code := 0x03) .ok rfl houtside
  have hcounters : (resync .rejoin u).port.counters = (bump .resyncs (endTransaction s)).port.counters :=
    resync_counters .rejoin u
  obtain ⟨hanswers, -, -⟩ := answered_refresh (s := s) .ok houtside
  rw [exec_rejoin, hostCommand_of_free hfree, rejoin_of_member (s := s.atTake 0x03) hs]
  refine ⟨_, rfl, hanswers, hgathers, ?_, ?_, counter_of_bump (s := endTransaction s) hcounters⟩
  all_goals simp [resync_eq, State.atTake]

/-- REJOIN of an ISOLATED station ends its isolation (R96). -/
theorem exec_rejoin_of_isolated {s : State} (hfree : codeRefused 0x03 s = false) (hs : s.control.station = .isolated) :
    ∃ t, exec .rejoin s = .next t ∧ Answers 0x03 .ok s t ∧ EntersGathering .rejoin 0 s.out s t ∧ t.line = s.line ∧
      t.control = { s.control with
        station := .gathering, answered := false, rejoinTimer := .stopped, isolation := none, rejoins := 0, run := 0,
        awaited := some .rejoin } ∧
      t.port.counters = (endTransaction s).port.counters := by
  let u := (s.atTake 0x03).setControl { s.control with
    awaited := some .rejoin, rejoinTimer := .stopped, isolation := none, rejoins := 0, run := 0 }
  have houtside := enterGathering_outside .rejoin 0 u
  have hgathers := (enterGathering_entersGathering .rejoin 0 u).of_take (code := 0x03) .ok rfl houtside
  have hcounters : (enterGathering .rejoin 0 u).port.counters = (endTransaction s).port.counters := by
    rw [enterGathering_eq]
    rfl
  obtain ⟨hanswers, -, -⟩ := answered_refresh (s := s) .ok houtside
  rw [exec_rejoin, hostCommand_of_free hfree, rejoin_of_isolated (s := s.atTake 0x03) hs]
  refine ⟨_, rfl, hanswers, hgathers, ?_, ?_, hcounters⟩
  all_goals simp [enterGathering_eq, State.atTake]

/-- LEAVE STATION of a MEMBER that holds and does nothing posts a LEAVE (R103). -/
theorem exec_leaveStation_of_free {s : State} (hfree : codeRefused 0x02 s = false)
    (hs : s.control.station = .member) (hown : s.own = .none) (hintent : s.intentBusy = false)
    (hcycle : s.engine.state.underWay = false) :
    ∃ t, exec .leaveStation s = .next t ∧ Answers 0x02 .ok s t ∧
      t.control = { s.control with station := .leaving, memberTimer := .stopped, awaited := some .leaveStation } ∧
      t.out = s.out.post .leave .leave ∧ t.line = s.line ∧ t.table = s.table ∧
      t.port.ring = s.port.ring.after .stationState s.ownId 2 3 14 0 ∧
      t.port.counters = (endTransaction s).port.counters ∧ KeepsBase s t ∧ KeepsCabinet s t ∧ LoadsFollow s t := by
  let u := (s.atTake 0x02).setControl { s.control with
    station := .leaving, memberTimer := .stopped, awaited := some .leaveStation }
  have houtside : ((stationEvent .member .leaveStation 0 u).setOut (s.out.post .leave .leave)).outside =
      (s.atTake 0x02).outside := by simp [u]
  obtain ⟨hanswers, hbase, hloads⟩ := answered_refresh (s := s) .ok houtside
  rw [exec_leaveStation, hostCommand_of_free hfree,
    leaveStation_of_free (s := s.atTake 0x02) hs hown hintent hcycle]
  refine ⟨_, rfl, hanswers, ?_, ?_, ?_, ?_, rfl, rfl, hbase, ⟨?_, ?_, ?_⟩, hloads⟩
  all_goals simp [stationEvent, State.atTake]

/-- Settles O12: the decision of each command by the station's state, and the entries into LEAVING and GATHERING. -/
theorem leaveStationAnswers : Obligations.LeaveStationAnswers := by
  unfold Obligations.LeaveStationAnswers
  refine ⟨fun s hfree => ⟨fun hs => ?notMember, fun hs hbusy => ?busy, exec_leaveStation_of_free hfree⟩,
    fun s hfree => ⟨fun hmember hisolated => ?apart, exec_rejoin_of_member hfree, exec_rejoin_of_isolated hfree⟩⟩
  case notMember =>
    exact answersOnly_of_unchanged (exec_leaveStation s) hfree (leaveStation_of_not_member (s := s.atTake 0x02) hs)
  case busy =>
    exact answersOnly_of_unchanged (exec_leaveStation s) hfree (leaveStation_of_busy (s := s.atTake 0x02) hs hbusy)
  case apart =>
    exact answersOnly_of_unchanged (exec_rejoin s) hfree (rejoin_of_apart (s := s.atTake 0x03) hmember hisolated)

end Sys2Proof.Machine
end

section
/-! SUPPORT. START STATION's checks of the configuration (R88, R107), and the statement about START STATION (R19, R39,
R89, R90). -/

namespace Sys2Proof.Machine

/-! ## The first bad field of a list of checks in address order -/

/-- A list of checks, each a field's address with whether the field is in its range, passes at an address. -/
def PassesAt (checks : List (Nat × Bool)) (a : Nat) : Prop := ∀ x ∈ checks, x.1 = a → x.2 = true

/-- In a list in address order the first check that fails is at the least address that does not pass. -/
theorem not_passesAt_of_find?_eq_some {checks : List (Nat × Bool)} {x : Nat × Bool}
    (hsorted : checks.Pairwise (fun x y => x.1 < y.1)) (h : checks.find? (fun x => !x.2) = some x) :
    ¬ PassesAt checks x.1 ∧ ∀ b < x.1, PassesAt checks b := by
  obtain ⟨hfails, before, after, rfl, hpass⟩ := List.find?_eq_some_iff_append.mp h
  rw [List.pairwise_append, List.pairwise_cons] at hsorted
  obtain ⟨-, ⟨hafter, -⟩, -⟩ := hsorted
  refine ⟨fun hp => ?_, fun b hb y hy hyb => ?_⟩
  · simp [hp x (by simp) rfl] at hfails
  · rcases List.mem_append.mp hy with hy | hy
    · simpa using hpass y hy
    · rcases List.mem_cons.mp hy with rfl | hy
      · omega
      · have := hafter y hy
        omega

theorem passesAt_of_find?_eq_none {checks : List (Nat × Bool)} (h : checks.find? (fun x => !x.2) = none) (a : Nat) :
    PassesAt checks a := by
  intro x hx _
  simpa using List.find?_eq_none.mp h x hx

/-! ## The checks of a configuration (R88, R107) -/

theorem inRange_iff (lo hi : Nat) (b : Byte) : inRange lo hi b = true ↔ lo ≤ b.toNat ∧ b.toNat ≤ hi := by
  simp [inRange]

theorem CareClass.isUnused_iff (k : CareClass) :
    k.isUnused = true ↔ k.maxTemp = 0 ∧ k.steam = 0 ∧ k.lenHi = 0 ∧ k.lenLo = 0 := by
  simp [CareClass.isUnused, and_assoc]

/-- The checks of a class entry, at the entry's addresses; an unused entry has none (R107). -/
def Settings.entryChecks (c : Settings) (i : Fin 6) : List (Nat × Bool) :=
  if c.classes[i].isUnused then [] else c.classes[i].fieldChecks.map (fun x => (0x020 + 4 * i.val + x.1, x.2))

theorem Settings.classChecks_eq (c : Settings) : c.classChecks = (List.finRange 6).flatMap c.entryChecks := rfl

/-- The addresses of an entry's checks lie within the entry. -/
theorem Settings.entryChecks_range {c : Settings} {i : Fin 6} {x : Nat × Bool} (h : x ∈ c.entryChecks i) :
    0x020 + 4 * i.val ≤ x.1 ∧ x.1 < 0x024 + 4 * i.val := by
  unfold Settings.entryChecks at h
  split at h
  · simp at h
  · simp only [CareClass.fieldChecks, List.map_cons, List.map_nil, List.mem_cons, List.not_mem_nil, or_false] at h
    rcases h with rfl | rfl | rfl <;> dsimp only <;> omega

/-- The checks stand in address order (R88). -/
theorem Settings.checks_sorted (c : Settings) :
    (c.scalarChecks ++ c.classChecks).Pairwise (fun x y => x.1 < y.1) := by
  rw [List.pairwise_append, c.classChecks_eq, List.pairwise_flatMap]
  refine ⟨?scalars, ⟨fun i _ => ?entry, ?entries⟩, fun x hx y hy => ?between⟩
  case scalars => simp [Settings.scalarChecks]
  case entry =>
    unfold Settings.entryChecks
    split
    · exact List.Pairwise.nil
    · simp [CareClass.fieldChecks]
  case entries =>
    refine (List.pairwise_lt_finRange 6).imp fun {i j} hij x hx y hy => ?_
    have hi := Settings.entryChecks_range hx
    have hj := Settings.entryChecks_range hy
    omega
  case between =>
    obtain ⟨i, -, hi⟩ := List.mem_flatMap.mp hy
    have hy' := Settings.entryChecks_range hi
    have hall : ∀ z ∈ c.scalarChecks, z.1 ≤ 0x01D := by simp [Settings.scalarChecks]
    have hx' := hall x hx
    omega

/-- The checks of an entry pass at an address as its fields are in their ranges (R107). -/
theorem Settings.entryChecks_pass (c : Settings) (i : Fin 6) (a : Nat) : PassesAt (c.entryChecks i) a ↔
    (c.classes[i].isUnused = false →
      (a = 0x020 + 4 * i.val → 30 ≤ c.classes[i].maxTemp.toNat ∧ c.classes[i].maxTemp.toNat ≤ 75) ∧
      (a = 0x021 + 4 * i.val → c.classes[i].steam.toNat ≤ 1) ∧
      (a = 0x022 + 4 * i.val → 1 ≤ c.classes[i].lenHi.toNat * 256 + c.classes[i].lenLo.toNat ∧
        c.classes[i].lenHi.toNat * 256 + c.classes[i].lenLo.toNat ≤ 600)) := by
  have hminutes : c.classes[i].minutes = c.classes[i].lenHi.toNat * 256 + c.classes[i].lenLo.toNat := rfl
  have h1 : 0x020 + 4 * i.val + 1 = 0x021 + 4 * i.val := by omega
  have h2 : 0x020 + 4 * i.val + 2 = 0x022 + 4 * i.val := by omega
  unfold PassesAt Settings.entryChecks
  cases hused : c.classes[i].isUnused with
  | true => simp
  | false =>
    simp only [Bool.false_eq_true, if_false, CareClass.fieldChecks, List.map_cons, List.map_nil,
      List.forall_mem_cons, List.not_mem_nil, false_implies, implies_true, and_true, Bool.and_eq_true,
      decide_eq_true_eq, h1, h2, Nat.add_zero, eq_comm (b := a), true_implies, ← hminutes]

/-- The checks pass at an address exactly when its field is in its range (R88, R107). -/
theorem Settings.passesAt_iff (c : Settings) (a : Nat) :
    PassesAt (c.scalarChecks ++ c.classChecks) a ↔ c.FieldOk a := by
  have hclasses : PassesAt c.classChecks a ↔ ∀ i, PassesAt (c.entryChecks i) a := by
    simp only [PassesAt, c.classChecks_eq, List.mem_flatMap, List.mem_finRange, true_and]
    exact ⟨fun h i x hx => h x ⟨i, hx⟩, fun h x ⟨i, hx⟩ => h i x hx⟩
  have hscalars : PassesAt (c.scalarChecks ++ c.classChecks) a ↔
      PassesAt c.scalarChecks a ∧ PassesAt c.classChecks a := List.forall_mem_append
  rw [hscalars, hclasses]
  simp only [c.entryChecks_pass]
  simp only [PassesAt, Settings.FieldOk, Settings.scalarChecks, List.forall_mem_cons, List.not_mem_nil,
    false_implies, implies_true, and_true, inRange_iff, Bool.or_eq_true, beq_iff_eq, Nat.zero_le, true_and,
    and_assoc, eq_comm (b := a), ← BitVec.toNat_inj, BitVec.ofNat_eq_ofNat, BitVec.toNat_zero]

/-- At least one care class entry is in use (R88). -/
def Settings.InUse (c : Settings) : Prop := ∃ k ∈ c.classes.toList, k.isUnused = false

theorem Settings.not_inUse_iff (c : Settings) : ¬ c.InUse ↔ c.classes.toList.all CareClass.isUnused = true := by
  simp only [Settings.InUse, List.all_eq_true, not_exists, not_and, Bool.not_eq_false]

/-- A configuration passes with every field in its range and an entry in use (R88). -/
theorem Settings.fieldOk_of_passes {c : Settings} (h : c.firstBad = none) : (∀ a, c.FieldOk a) ∧ c.InUse := by
  unfold Settings.firstBad at h
  split at h
  · cases h
  · next hfind =>
    refine ⟨fun a => (c.passesAt_iff a).mp (passesAt_of_find?_eq_none hfind a), ?_⟩
    by_contra hunused
    rw [if_pos (c.not_inUse_iff.mp hunused)] at h
    cases h

/-- The address of a refusal: the first field out of its range, or 0x020 for a table without an entry in use (R88). -/
def Settings.RefusedAt (c : Settings) (a : Nat) : Prop :=
  (¬ c.FieldOk a ∧ ∀ b < a, c.FieldOk b) ∨ (a = 0x020 ∧ (∀ b, c.FieldOk b) ∧ ¬ c.InUse)

theorem Settings.refusedAt_of_firstBad {c : Settings} {a : Nat} (h : c.firstBad = some a) : c.RefusedAt a := by
  unfold Settings.firstBad at h
  split at h
  · next x hfind =>
    cases h
    obtain ⟨hfails, hbefore⟩ := not_passesAt_of_find?_eq_some c.checks_sorted hfind
    exact .inl ⟨fun hok => hfails ((c.passesAt_iff _).mpr hok), fun b hb => (c.passesAt_iff b).mp (hbefore b hb)⟩
  · next hfind =>
    split at h
    · next hunused =>
      cases h
      exact .inr ⟨rfl, fun b => (c.passesAt_iff b).mp (passesAt_of_find?_eq_none hfind b), c.not_inUse_iff.mpr hunused⟩
    · cases h

/-- A configuration is refused at one address at most. -/
theorem Settings.RefusedAt.unique {c : Settings} {a b : Nat} (ha : c.RefusedAt a) (hb : c.RefusedAt b) : a = b := by
  rcases ha with ⟨hbadA, hbeforeA⟩ | ⟨rfl, hokA, -⟩
  · rcases hb with ⟨hbadB, hbeforeB⟩ | ⟨-, hokB, -⟩
    · have hle : ¬ a < b := fun hlt => hbadA (hbeforeB a hlt)
      have hge : ¬ b < a := fun hlt => hbadB (hbeforeA b hlt)
      omega
    · exact absurd (hokB a) hbadA
  · rcases hb with ⟨hbadB, -⟩ | ⟨rfl, -, -⟩
    · exact absurd (hokA b) hbadB
    · rfl

theorem Settings.RefusedAt.not_passes {c : Settings} {a : Nat} (h : c.RefusedAt a) :
    ¬ ((∀ b, c.FieldOk b) ∧ c.InUse) := by
  rintro ⟨hok, hused⟩
  rcases h with ⟨hbad, -⟩ | ⟨-, -, hunused⟩
  · exact hbad (hok a)
  · exact hunused hused

/-- A configuration is refused at an address exactly when it is the one R88 names. -/
theorem Settings.firstBad_eq_some_iff (c : Settings) (a : Nat) : c.firstBad = some a ↔ c.RefusedAt a := by
  refine ⟨Settings.refusedAt_of_firstBad, fun ha => ?_⟩
  cases hbad : c.firstBad with
  | none => exact absurd (Settings.fieldOk_of_passes hbad) ha.not_passes
  | some b => rw [(Settings.refusedAt_of_firstBad hbad).unique ha]

/-- A configuration passes exactly when every field is in its range and an entry is in use (R88). -/
theorem Settings.firstBad_eq_none_iff (c : Settings) : c.firstBad = none ↔ (∀ a, c.FieldOk a) ∧ c.InUse := by
  refine ⟨Settings.fieldOk_of_passes, fun hpasses => ?_⟩
  cases hbad : c.firstBad with
  | none => rfl
  | some b => exact absurd hpasses (Settings.refusedAt_of_firstBad hbad).not_passes

/-! ## START STATION (R88, R89) -/

theorem startStation_of_not_offline {s : State} (hs : s.control.station ≠ .offline) :
    startStation s = (s, .wrongState) := if_neg hs

theorem startStation_of_bad {s : State} {a : Nat} (hs : s.control.station = .offline) (hbad : s.cfg.firstBad = some a) :
    startStation s = (s, .badConfig a) := by
  simp [startStation, hs, hbad]

theorem startStation_of_passes {s : State} (hs : s.control.station = .offline) (hgood : s.cfg.firstBad = none) :
    startStation s = (startGathering s, .ok) := by
  simp [startStation, hs, hgood]

/-- The table with the own record set up and the two own timers started (R39, R49, R50). -/
def Table.joined (t : Table) (own : Nat) (seq : Byte) (c : Settings) : Table :=
  { t.put own (some { seq := seq, lease := .stopped, holding := .none }) with
    renewal := .running c.renewalTicks, selfLease := .running c.selfLeaseTicks }

theorem Table.rec?_joined (t : Table) {own : Nat} (seq : Byte) (c : Settings) (hown : 1 ≤ own ∧ own ≤ 15) :
    (t.joined own seq c).rec? own = some { seq := seq, lease := .stopped, holding := .none } := by
  have hrec := t.rec?_put own own (some { seq := seq, lease := .stopped, holding := .none })
  rw [if_pos ⟨rfl, hown⟩] at hrec
  exact hrec

/-- The state in which START STATION enters GATHERING: interface, table and counts have taken up the configuration (R19,
R39, R89). -/
def State.joining (s : State) : State :=
  ((s.setControl { s.control with awaited := some .startStation, run := 0, rejoins := 0 }).setLine
    { s.line.detach with state := .waitIdle, rate := s.cfg.rate, id := s.cfg.stationId }).setTable
      (s.table.joined s.ownId (s.out.seq - 1) s.cfg)

theorem State.joining_own {s : State} (hown : 1 ≤ s.ownId ∧ s.ownId ≤ 15) : s.joining.own = .none :=
  Table.holding_of_rec (s.table.rec?_joined (s.out.seq - 1) s.cfg hown)

/-- START STATION's transition is the entry into GATHERING of the state set up (R89, R90). -/
theorem startGathering_eq (s : State) : startGathering s =
    { s.joining.moved .gathering .start 0 with
      control := { s.joining.control with station := .gathering, answered := false }
      out := s.out.post .rollcall (.rollcall s.cfg.powerBudget s.cfg.ventBudget s.cfg.fillBudget) } :=
  enterGathering_eq .start 0 s.joining

theorem startGathering_outside (s : State) : (startGathering s).outside = s.outside :=
  enterGathering_outside .start 0 s.joining

/-- Joining the line generates STATION_STATE alone: the own record held nothing (R85, R106). -/
theorem State.joining_ringMoved {s : State} (hs : s.control.station = .offline) (hown : 1 ≤ s.ownId ∧ s.ownId ≤ 15) :
    s.joining.ringMoved .gathering .start 0 = s.port.ring.after .stationState s.ownId 0 1 1 0 := by
  have hstation : s.joining.control.station = .offline := hs
  rw [State.ringMoved_of_none (State.joining_own hown), hstation]
  rfl

@[simp] theorem OutList.post_seq (o : OutList) (id : SlotId) (c : Content) : (o.post id c).seq = o.seq := by
  unfold OutList.post; split <;> simp
@[simp] theorem OutList.post_drops (o : OutList) (id : SlotId) (c : Content) : (o.post id c).drops = o.drops := by
  unfold OutList.post; split <;> simp

/-- The list of an OFFLINE station holds nothing (R36). -/
theorem OfflineQuiet.slot {s : State} (h : OfflineQuiet s) (id : SlotId) : s.out.slot id = ⟨none, none⟩ := by
  rw [← h.noEntry]
  exact s.out.slot_emptied id

/-- A ROLLCALL posted to an empty list is its one entry (R27). -/
theorem OfflineQuiet.post_rollcall {s : State} (h : OfflineQuiet s) (c : Content) :
    (s.out.post .rollcall c).rollcall = ⟨some ⟨c, 0, 0⟩, none⟩ ∧
      ∀ id, id ≠ .rollcall → (s.out.post .rollcall c).slot id = ⟨none, none⟩ := by
  have hflight : s.out.flight ≠ some .rollcall := by simp [h.noFlight]
  have hposted := OutList.slot_post_of_not_flight c (id := .rollcall) (by simp) hflight
  rw [h.slot] at hposted
  exact ⟨hposted, fun id hid => by rw [s.out.slot_post_ne c hid, h.slot]⟩

/-- The table after START STATION: the own record alone, holding nothing, and the two own timers running (R39, R40). -/
theorem Table.clear_joined (t : Table) {own : Nat} (seq : Byte) (c : Settings) (hown : 1 ≤ own ∧ own ≤ 15) :
    ((t.joined own seq c).clear own).rec? own = some { seq := seq, lease := .stopped, holding := .none } ∧
      (∀ id, id ≠ own → ((t.joined own seq c).clear own).rec? id = none) ∧
      ((t.joined own seq c).clear own).queue = [] ∧ ((t.joined own seq c).clear own).windowOpen = false ∧
      ((t.joined own seq c).clear own).renewal = .running c.renewalTicks ∧
      ((t.joined own seq c).clear own).selfLease = .running c.selfLeaseTicks := by
  refine ⟨?_, fun id hid => by rw [Table.rec?_clear, if_neg hid], ?_⟩
  · rw [Table.rec?_clear, if_pos rfl, t.rec?_joined seq c hown]
    rfl
  · rw [Table.clear_eq]
    exact ⟨rfl, rfl, rfl, rfl⟩

/-- Settles O11: the checks stand in address order, so that the first one to fail names the field; a configuration that
passes sets up the state that enters GATHERING. -/
theorem startStationAnswers : Obligations.StartStationAnswers := by
  unfold Obligations.StartStationAnswers
  refine ⟨fun s hfree => ⟨fun hs => ?wrongState, fun a hs hbad => ?badConfig⟩,
    fun s hfree hs hgood hquiet => ?joins,
    fun c => ⟨c.firstBad_eq_none_iff, c.firstBad_eq_some_iff, CareClass.isUnused_iff⟩⟩
  case wrongState =>
    exact answersOnly_of_unchanged (exec_startStation s) hfree (startStation_of_not_offline (s := s.atTake 0x01) hs)
  case badConfig =>
    exact answersOnly_of_unchanged (exec_startStation s) hfree (startStation_of_bad (s := s.atTake 0x01) hs hbad)
  case joins =>
    have hown : 1 ≤ s.ownId ∧ s.ownId ≤ 15 := Settings.stationId_range hgood
    have hring := State.joining_ringMoved (s := s.atTake 0x01) hs hown
    obtain ⟨hanswers, hbase, hloads⟩ := answered_refresh (s := s) .ok (startGathering_outside (s.atTake 0x01))
    obtain ⟨hownRecord, hothers, hqueue, hwindow, hrenewal, hselfLease⟩ :=
      s.table.clear_joined (s.out.seq - 1) s.cfg hown
    obtain ⟨hrollcall, hempty⟩ :=
      hquiet.post_rollcall (.rollcall s.cfg.powerBudget s.cfg.ventBudget s.cfg.fillBudget)
    rw [exec_startStation, hostCommand_of_free hfree, startStation_of_passes (s := s.atTake 0x01) hs hgood]
    rw [startGathering_eq] at hanswers hbase hloads ⊢
    refine ⟨_, rfl, hanswers, rfl, rfl, rfl, rfl, rfl, rfl, hownRecord, hothers, hqueue, hwindow, hrenewal, hselfLease,
      hrollcall, hempty, (OutList.post_flight ..).trans hquiet.noFlight, OutList.post_seq .., OutList.post_drops ..,
      rfl, ?_, ?_, hring, rfl, hbase, hloads⟩
    all_goals simp [State.moved, State.joining, State.atTake]

end Sys2Proof.Machine
end

section
/-! SUPPORT. A written byte of an open WRITE (R181, R182): what the configuration reads as after a store (R185, R204),
what each region makes of the byte (R87, R121, R187, R197), and the statement about the three write rows. -/

namespace Sys2Proof.Machine

/-! ## Reading the configuration after a store (R185, R204) -/

theorem Settings.scalar_setScalar (c : Settings) (v : Byte) {i j : Nat} (hi : i < 14) (hj : j < 14) :
    (c.setScalar i v).scalar j = if j = i then v else c.scalar j := by
  interval_cases i <;> interval_cases j <;> rfl

theorem Settings.setScalar_classes (c : Settings) (i : Nat) (v : Byte) : (c.setScalar i v).classes = c.classes := by
  unfold Settings.setScalar
  split <;> rfl

theorem CareClass.byte_setByte (k : CareClass) (v : Byte) {i j : Nat} (hi : i < 4) (hj : j < 4) :
    (k.setByte i v).byte j = if j = i then v else k.byte j := by
  interval_cases i <;> interval_cases j <;> rfl

theorem Settings.classByte_eq (c : Settings) {j : Nat} (hj : j / 4 < 6) :
    c.classByte j = (c.classes[j / 4]).byte (j % 4) := by
  have hrange : 1 ≤ j / 4 + 1 ∧ j / 4 + 1 ≤ 6 := by omega
  simp [Settings.classByte, Settings.careClass?, hrange]

theorem Settings.classByte_congr {c d : Settings} (h : c.classes = d.classes) (j : Nat) :
    c.classByte j = d.classByte j := by
  simp only [Settings.classByte, Settings.careClass?, h]

theorem Settings.classByte_setClassByte (c : Settings) (v : Byte) {i j : Nat} (hi : i < 24) (hj : j < 24) :
    (c.setClassByte i v).classByte j = if j = i then v else c.classByte j := by
  have hi' : i / 4 < 6 := by omega
  have hj' : j / 4 < 6 := by omega
  rw [Settings.classByte_eq _ hj', Settings.classByte_eq _ hj']
  simp only [Settings.setClassByte, hi', dif_pos]
  by_cases hentry : j / 4 = i / 4
  · have hbyte := (c.classes[i / 4]).byte_setByte v (Nat.mod_lt i four_pos) (Nat.mod_lt j four_pos)
    have hsame : j % 4 = i % 4 ↔ j = i := by omega
    simpa [hentry, hsame] using hbyte
  · have hne : j ≠ i := fun e => hentry (by rw [e])
    simp [hne, Ne.symm hentry]

theorem Settings.setClassByte_scalar (c : Settings) (i : Nat) (v : Byte) (j : Nat) :
    (c.setClassByte i v).scalar j = c.scalar j := by
  unfold Settings.setClassByte
  split <;> rfl

/-- The byte the configuration reads as at an address (R185, R204). -/
def Settings.byteAt (c : Settings) (a : Nat) : Byte :=
  if a ≤ 0x01D then c.scalar (a - 0x010) else c.classByte (a - 0x020)

/-- The configuration after a byte stored at an address (R185, R204). -/
def Settings.store (c : Settings) (a : Nat) (v : Byte) : Settings :=
  if a ≤ 0x01D then c.setScalar (a - 0x010) v else c.setClassByte (a - 0x020) v

section
variable (c : Settings) {a : Nat}

theorem Settings.byteAt_scalar (h : a ≤ 0x01D) : c.byteAt a = c.scalar (a - 0x010) := if_pos h

theorem Settings.byteAt_class (h : 0x020 ≤ a) : c.byteAt a = c.classByte (a - 0x020) := if_neg (by omega)

theorem Settings.store_scalar (v : Byte) (h : a ≤ 0x01D) : c.store a v = c.setScalar (a - 0x010) v := if_pos h

theorem Settings.store_class (v : Byte) (h : 0x020 ≤ a) : c.store a v = c.setClassByte (a - 0x020) v :=
  if_neg (by omega)

end

theorem isConfigAddr_iff (a : Nat) :
    isConfigAddr a = true ↔ (0x010 ≤ a ∧ a ≤ 0x01D) ∨ (0x020 ≤ a ∧ a ≤ 0x037) := by
  simp [isConfigAddr]

/-- A stored configuration byte is read back at its address and nowhere else. -/
theorem Settings.byteAt_store (c : Settings) (v : Byte) {a j : Nat} (ha : isConfigAddr a = true)
    (hj : isConfigAddr j = true) : (c.store a v).byteAt j = if j = a then v else c.byteAt j := by
  rw [isConfigAddr_iff] at ha hj
  rcases ha with ⟨hlo, hhi⟩ | ⟨hlo, hhi⟩ <;> rcases hj with ⟨hlo', hhi'⟩ | ⟨hlo', hhi'⟩
  · have hsame : j - 0x010 = a - 0x010 ↔ j = a := by omega
    simp only [c.store_scalar v hhi, Settings.byteAt_scalar _ hhi', c.scalar_setScalar v (i := a - 0x010)
      (j := j - 0x010) (by omega) (by omega), hsame]
  · have hne : j ≠ a := by omega
    rw [if_neg hne, c.store_scalar v hhi, Settings.byteAt_class _ hlo', Settings.byteAt_class _ hlo']
    exact Settings.classByte_congr (c.setScalar_classes _ v) _
  · have hne : j ≠ a := by omega
    rw [if_neg hne, c.store_class v hlo, Settings.byteAt_scalar _ hhi', Settings.byteAt_scalar _ hhi',
      c.setClassByte_scalar]
  · have hsame : j - 0x020 = a - 0x020 ↔ j = a := by omega
    simp only [c.store_class v hlo, Settings.byteAt_class _ hlo', c.classByte_setClassByte v (i := a - 0x020)
      (j := j - 0x020) (by omega) (by omega), hsame]

/-- At a configuration address the exchange area shows the stored configuration (R182). -/
theorem exchange_of_config (s : State) {a : Nat} (ha : isConfigAddr a = true) : s.exchange a = s.cfg.byteAt a := by
  rw [isConfigAddr_iff] at ha
  have hplain : coherentOf a = none := by
    unfold coherentOf
    rw [if_neg (by omega), if_neg (by omega), if_neg (by omega), if_neg (by omega), if_neg (by omega)]
  unfold State.exchange
  rw [hplain]
  unfold plainByte
  rcases ha with ⟨hlo, hhi⟩ | ⟨hlo, hhi⟩
  · rw [if_neg (by omega), if_pos ⟨hlo, hhi⟩, s.cfg.byteAt_scalar hhi]
  · rw [if_neg (by omega), if_neg (by omega), if_pos ⟨hlo, hhi⟩, s.cfg.byteAt_class hlo]

/-! ## What a region makes of a byte (R87, R121, R182, R187, R197) -/

section
variable {s : State} {p : Port} {a : Nat} (v : Byte) (x : OpenTxn)

theorem writeByte_config_unlocked (ha : isConfigAddr a = true) (hs : s.control.station = .offline) :
    writeByte a v x s = storeConfig (s.cfg.store a v) s := by
  simp [writeByte, writeConfig, State.locked, ha, hs, Settings.store]

theorem writeByte_config_locked (ha : isConfigAddr a = true) (hs : s.control.station ≠ .offline) :
    writeByte a v x (s.setPort p) = s.setPort { p with txn := .opened { x with lostConfig := true } } := by
  have hlocked : (s.setPort p).locked = true := by simpa [State.locked] using hs
  rw [writeByte, if_pos ha, writeConfig, if_pos hlocked]
  rfl

theorem writeByte_code_free (hcode : p.code = 0) : writeByte 0x080 v x (s.setPort p) =
    s.setPort { p with code := v, txn := .opened { x with storedCode := v != 0 } } :=
  if_pos hcode

theorem writeByte_code_taken (hcode : p.code ≠ 0) : writeByte 0x080 v x (s.setPort p) =
    s.setPort { p with txn := .opened { x with lostCode := true } } :=
  if_neg hcode

theorem writeByte_param1 : writeByte 0x084 v x (s.setPort p) = s.setPort { p with param1 := v } := rfl

theorem writeByte_param2 : writeByte 0x085 v x (s.setPort p) = s.setPort { p with param2 := v } := rfl

theorem writeByte_staging (hlo : 0x100 ≤ a) (hhi : a ≤ 0x1FF) :
    writeByte a v x (s.setPort p) = s.setPort { p with staging := Memory.write p.staging a v } := by
  have hconfig : ¬ isConfigAddr a = true := fun h => by
    rw [isConfigAddr_iff] at h
    omega
  rw [writeByte, if_neg hconfig, if_neg (by omega), writeRegister, if_neg (by omega), if_neg (by omega),
    if_neg (by omega), if_pos ⟨hlo, hhi⟩]
  rfl

/-- NEXT_OUT after a byte: it marks no more entries as read than are unread (R197). -/
def Ring.nextOutAfter (r : Ring) (v : Byte) : BitVec 5 :=
  if v.toNat ≤ 31 ∧ (v.toNat + 32 - r.nextOut.toNat) % 32 ≤ (r.nextIn.toNat + 32 - r.nextOut.toNat) % 32
  then BitVec.ofNat 5 v.toNat else r.nextOut

theorem writeByte_nextOut : writeByte 0x0F1 v x (s.setPort p) =
    s.setPort { p with ring := { p.ring with nextOut := p.ring.nextOutAfter v } } := by
  have hmarked (n : BitVec 5) : (n - p.ring.nextOut).toNat = (n.toNat + 32 - p.ring.nextOut.toNat) % 32 := by
    rw [BitVec.toNat_sub]
    omega
  have hvalue (hv : v.toNat ≤ 31) : (BitVec.ofNat 5 v.toNat).toNat = v.toNat := by
    rw [BitVec.toNat_ofNat]
    omega
  have hwrite : writeByte 0x0F1 v x (s.setPort p) = writeNextOut v (s.setPort p) := rfl
  rw [hwrite]
  unfold writeNextOut Ring.nextOutAfter Ring.unread
  simp only [State.setPort_port, hmarked]
  by_cases hv : v.toNat ≤ 31
  · rw [hvalue hv]
    split <;> rfl
  · rw [if_neg fun h => hv h.1, if_neg fun h => hv h.1]

theorem writeByte_discarded (hconfig : isConfigAddr a = false) (hcode : a ≠ 0x080) (hparam1 : a ≠ 0x084)
    (hparam2 : a ≠ 0x085) (hnextOut : a ≠ 0x0F1) (hstaging : ¬ (0x100 ≤ a ∧ a ≤ 0x1FF)) : writeByte a v x s = s := by
  simp [writeByte, writeRegister, hconfig, hcode, hparam1, hparam2, hnextOut, hstaging]

end

/-! ## The rows (R181) -/

/-- The port as the region takes a data byte of a WRITE: SDO is driven low. -/
def Port.sdoLow (p : Port) : Port := { p with sdo := .low }

theorem advanceAddr_of_opened {s : State} {x : OpenTxn} (h : s.port.txn = .opened x) :
    advanceAddr s = setTxn { x with addr := x.addr + 1 } s := by
  simp [advanceAddr, h]

section
variable {s : State} {c : Instr} {b : SpiByte} {x y : OpenTxn}

/-- A whole byte of a WRITE that goes on, whichever of the three rows brings it (log 15). -/
theorem exec_writeRow {u : State} {a : Nat} (hc : c = .configWrite b ∨ c = .nextOutWrite b ∨ c = .registerWrite b)
    (hstarts : b.starts = false) (hwhole : b.whole = true) (hends : b.ends = false) (htxn : s.port.txn = .opened x)
    (hmode : x.mode = .write) (ha : x.addr.toNat = a)
    (hwrite : writeByte a b.value x (s.setPort s.port.sdoLow) = u)
    (hy : u.port.txn = .opened y) : exec c s = .next (refresh (setTxn { y with addr := y.addr + 1 } u)) := by
  have hdata : portByte b s = advanceAddr (writeByte x.addr.toNat b.value x (s.setPort s.port.sdoLow)) := by
    simp [portByte, innerByte, dataByte, hstarts, hwhole, hends, htxn, hmode, Port.sdoLow]
  rw [← advanceAddr_of_opened hy, ← hwrite, ← ha, ← hdata]
  rcases hc with rfl | rfl | rfl <;> rfl

/-- A byte that its region stores in the port alone keeps everything else (R182). -/
theorem exec_writeRow_keeps {p : Port} (hexec : exec c s = .next (refresh (setTxn y (s.setPort p)))) :
    ∃ t, exec c s = .next t ∧ (KeepsLine s t ∧ t.meas = s.meas ∧ t.fault = s.fault ∧ t.pending = s.pending ∧
      t.free = s.free ∧ LoadsFollow s t) ∧ t.cfg = s.cfg ∧ t.engine = s.engine ∧
      t.port = { p with txn := .opened y } :=
  ⟨_, hexec, ⟨⟨rfl, rfl, rfl, rfl⟩, rfl, rfl, rfl, rfl, loadsFollow_refresh_of_load rfl⟩, rfl, rfl, rfl⟩

end

/-- Settles O25: each address belongs to one region, whose store is one equation. -/
theorem writesAreTestedByRegion : Obligations.WritesAreTestedByRegion := by
  unfold Obligations.WritesAreTestedByRegion
  intro s c b x hc hstarts hwhole hends htxn hmode a isConfig kept next
  have hexec : ∀ {j : Nat} {u : State} {y : OpenTxn}, a = j → writeByte j b.value x (s.setPort s.port.sdoLow) = u →
      u.port.txn = .opened y → exec c s = .next (refresh (setTxn { y with addr := y.addr + 1 } u)) :=
    exec_writeRow hc hstarts hwhole hends htxn hmode
  refine ⟨fun ha hs => ?stored, fun ha hs => ?locked, fun ha hcode => ?code, fun ha hcode => ?codeLost,
    fun ha => ?param1, fun ha => ?param2, fun hlo hhi => ?staging, fun ha => ?nextOut,
    fun hconfig hcode hparam1 hparam2 hnextOut hstaging => ?discarded⟩
  case stored =>
    have haddr : isConfigAddr a = true := (isConfigAddr_iff a).mpr ha
    have hwrite := writeByte_config_unlocked (s := s.setPort s.port.sdoLow) b.value x haddr hs
    refine ⟨_, hexec rfl hwrite htxn, ⟨⟨rfl, rfl, rfl, rfl⟩, rfl, rfl, rfl, rfl, loadsFollow_refresh_of_load rfl⟩,
      fun j hj => ?_, rfl, rfl⟩
    have hj' : isConfigAddr j = true := (isConfigAddr_iff j).mpr hj
    rw [exchange_of_config _ hj', exchange_of_config _ hj']
    exact s.cfg.byteAt_store b.value haddr hj'
  case locked =>
    exact exec_writeRow_keeps (hexec rfl (writeByte_config_locked b.value x ((isConfigAddr_iff a).mpr ha) hs) rfl)
  case code => exact exec_writeRow_keeps (hexec ha (writeByte_code_free b.value x hcode) rfl)
  case codeLost => exact exec_writeRow_keeps (hexec ha (writeByte_code_taken b.value x hcode) rfl)
  case param1 => exact exec_writeRow_keeps (hexec ha (writeByte_param1 b.value x) htxn)
  case param2 => exact exec_writeRow_keeps (hexec ha (writeByte_param2 b.value x) htxn)
  case staging =>
    obtain ⟨t, ht, hkept, hcfg, hengine, hport⟩ :=
      exec_writeRow_keeps (hexec rfl (writeByte_staging b.value x hlo hhi) htxn)
    refine ⟨t, ht, hkept, hcfg, hengine, hport, fun hwf j => ?_⟩
    rw [hport]
    exact Memory.read_write a b.value j hwf
  case nextOut => exact exec_writeRow_keeps (hexec ha (writeByte_nextOut b.value x) htxn)
  case discarded =>
    have haddr : isConfigAddr a = false := Bool.eq_false_iff.mpr fun h => hconfig ((isConfigAddr_iff a).mp h)
    exact exec_writeRow_keeps
      (hexec rfl (writeByte_discarded b.value x haddr hcode hparam1 hparam2 hnextOut hstaging) htxn)

end Sys2Proof.Machine
end

section
/-! SUPPORT. LOAD CYCLE's check (R107 to R118): what the check of one record answers, what the check of a run of records
answers, and the statement about the whole check. -/

namespace Sys2Proof.Machine

/-! ## Codes of kinds and end conditions (R202) -/

theorem EndCond.ofCode?_eq_some_iff (n : Nat) (e : EndCond) : EndCond.ofCode? n = some e ↔ e.code = n := by
  constructor
  · intro h
    unfold EndCond.ofCode? at h
    split at h <;> cases h <;> rfl
  · rintro rfl
    cases e <;> rfl

theorem EndCond.ofCode?_eq_none {n : Nat} (h : EndCond.ofCode? n = none) : ¬ (1 ≤ n ∧ n ≤ 4) := by
  rintro ⟨hlo, hhi⟩
  interval_cases n <;> cases h

theorem PhaseKind.code_range (kind : PhaseKind) : 1 ≤ kind.code ∧ kind.code ≤ 7 := by
  cases kind <;> decide

theorem PhaseKind.code_injective : Function.Injective PhaseKind.code := fun a b h =>
  Option.some.inj (((PhaseKind.ofCode?_eq_some_iff _ a).mpr h).symm.trans ((PhaseKind.ofCode?_eq_some_iff _ b).mpr rfl))

theorem EndCond.code_injective : Function.Injective EndCond.code := fun a b h =>
  Option.some.inj (((EndCond.ofCode?_eq_some_iff _ a).mpr h).symm.trans ((EndCond.ofCode?_eq_some_iff _ b).mpr rfl))

theorem PhaseKind.eq_steam_iff (kind : PhaseKind) : kind = .steam ↔ kind.code = 3 := by
  cases kind <;> decide

theorem EndCond.eq_time_iff (e : EndCond) : e = .time ↔ e.code = 1 := by
  cases e <;> decide

/-! ## The tables of R109 and R110 on codes -/

theorem endAllowed_iff (kind : PhaseKind) (e : EndCond) : endAllowed kind e = true ↔
    (kind.code, e.code) ∈ [(1, 4), (2, 1), (2, 2), (3, 1), (3, 3), (4, 1), (5, 1), (5, 2), (5, 3), (6, 1), (6, 3),
      (7, 1), (7, 2)] := by
  cases kind <;> cases e <;> decide

theorem tempNeed_required_iff (kind : PhaseKind) (e : EndCond) :
    tempNeed kind e = .required ↔ kind.code = 2 ∨ kind.code = 5 ∨ (kind.code = 7 ∧ e.code = 2) := by
  cases kind <;> cases e <;> decide

theorem tempNeed_absent_iff (kind : PhaseKind) (e : EndCond) :
    tempNeed kind e = .absent ↔ kind.code = 1 ∨ (kind.code = 7 ∧ e.code ≠ 2) := by
  cases kind <;> cases e <;> decide

theorem humNeed_required_iff {kind : PhaseKind} {e : EndCond} (h : endAllowed kind e = true) :
    humNeed kind e = .required ↔ kind.code = 3 ∨ (kind.code = 5 ∨ kind.code = 6) ∧ e.code = 3 := by
  revert h
  cases kind <;> cases e <;> decide

theorem humNeed_absent_iff {kind : PhaseKind} {e : EndCond} (h : endAllowed kind e = true) :
    humNeed kind e = .absent ↔ kind.code = 1 ∨ kind.code = 2 ∨ kind.code = 4 ∨ kind.code = 7 ∨
      (kind.code = 5 ∨ kind.code = 6) ∧ e.code ≠ 3 := by
  revert h
  cases kind <;> cases e <;> decide

/-- A target of 0 is no target, and any other one lies in its range (R110). -/
theorem targetOk_iff (need : TargetNeed) {lo : Nat} (hlo : 0 < lo) (hi v : Nat) : targetOk need lo hi v = true ↔
    (v = 0 ∨ (lo ≤ v ∧ v ≤ hi)) ∧ (need = .required → v ≠ 0) ∧ (need = .absent → v = 0) := by
  cases need <;> simp [targetOk] <;> omega

/-! ## The checks of one record (R109 to R113) -/

/-- The reasons in the order of R118. -/
def CycleReason.inOrder : List CycleReason :=
  [.count, .cls, .kind, .endCondition, .targetRange, .classTemp, .classSteam, .claimShape, .claimSize, .duration,
    .limit, .pad, .cycleLength]

/-- A reason's code is its place in the order. -/
theorem CycleReason.inOrder_code (q : CycleReason) : CycleReason.inOrder[q.code - 1]? = some q := by
  cases q <;> rfl

theorem CycleReason.mem_inOrder (q : CycleReason) : q ∈ CycleReason.inOrder :=
  List.mem_of_getElem? q.inOrder_code

theorem CycleReason.code_injective : Function.Injective CycleReason.code := fun a b h =>
  Option.some.inj (by rw [← a.inOrder_code, h, b.inOrder_code])

/-- What the check of one record tests for a reason, once its kind and end condition are known (R109 to R113). -/
def RawPhase.check (c : Settings) (k : CareClass) (r : RawPhase) (kind : PhaseKind) (e : EndCond) :
    CycleReason → Bool
  | .endCondition => endAllowed kind e
  | .targetRange => targetOk (tempNeed kind e) 20 75 r.temp && targetOk (humNeed kind e) 5 95 r.hum
  | .classTemp => !(r.temp != 0 && decide (k.maxTemp.toNat < r.temp))
  | .classSteam => !(kind == .steam && (k.steam == 0 || c.steamCount == 0))
  | .claimShape => claimShapeOk kind r.power r.vent
  | .claimSize => claimSizeOk c kind r.power r.vent
  | .duration => durationOk e r.duration
  | .limit => limitOk e r.onLimit r.limit
  | .pad => r.padClear
  | .kind | .count | .cls | .cycleLength => true

/-- The tests keyed by their reasons' codes, in the order of R118. -/
def RawPhase.checks (c : Settings) (k : CareClass) (r : RawPhase) (kind : PhaseKind) (e : EndCond) :
    List (Nat × Bool) :=
  CycleReason.inOrder.map (fun q => (q.code, r.check c k kind e q))

section
variable {c : Settings} {k : CareClass} {r : RawPhase} {kind : PhaseKind} {e : EndCond}

theorem RawPhase.checks_sorted : (r.checks c k kind e).Pairwise (fun x y => x.1 < y.1) := by
  simp [RawPhase.checks, CycleReason.inOrder, CycleReason.code]

theorem RawPhase.passesAt_checks (q : CycleReason) :
    PassesAt (r.checks c k kind e) q.code ↔ r.check c k kind e q = true := by
  simp only [PassesAt, RawPhase.checks, List.forall_mem_map, CycleReason.code_injective.eq_iff]
  exact ⟨fun h => h q q.mem_inOrder rfl, fun h _ _ hq => hq ▸ h⟩

theorem RawPhase.check_targetRange (hk : r.kind = kind.code) (he : r.stop = e.code)
    (hallowed : endAllowed kind e = true) :
    r.check c k kind e .targetRange = true ↔ r.Passes c k .targetRange := by
  rw [RawPhase.check, Bool.and_eq_true, targetOk_iff _ (by decide), targetOk_iff _ (by decide), tempNeed_required_iff,
    tempNeed_absent_iff, humNeed_required_iff hallowed, humNeed_absent_iff hallowed, ← hk, ← he]
  constructor
  · rintro ⟨⟨htemp, htempReq, htempAbs⟩, hhum, hhumReq, hhumAbs⟩
    exact ⟨htemp, hhum, htempReq, htempAbs, hhumReq, hhumAbs⟩
  · rintro ⟨htemp, hhum, htempReq, htempAbs, hhumReq, hhumAbs⟩
    exact ⟨⟨htemp, htempReq, htempAbs⟩, hhum, hhumReq, hhumAbs⟩

theorem RawPhase.check_classTemp : r.check c k kind e .classTemp = true ↔ r.Passes c k .classTemp := by
  simp only [RawPhase.check, RawPhase.Passes, Bool.not_eq_true', Bool.and_eq_false_iff, bne_eq_false_iff_eq,
    decide_eq_false_iff_not]
  omega

theorem RawPhase.check_classSteam (hk : r.kind = kind.code) :
    r.check c k kind e .classSteam = true ↔ r.Passes c k .classSteam := by
  simp [RawPhase.check, RawPhase.Passes, hk, ← PhaseKind.eq_steam_iff, imp_iff_not_or]

theorem RawPhase.check_claimShape (hk : r.kind = kind.code) :
    r.check c k kind e .claimShape = true ↔ r.Passes c k .claimShape := by
  simp only [RawPhase.check, RawPhase.Passes, claimShapeOk, hk, Bool.and_eq_true, decide_eq_true_eq]
  cases kind <;> simp [PhaseKind.code, powerShape, ventShape] <;> omega

theorem RawPhase.check_claimSize (hk : r.kind = kind.code) :
    r.check c k kind e .claimSize = true ↔ r.Passes c k .claimSize := by
  have hfill : kind.fillFlag ≤ c.fillBudget.toNat ↔ (kind.code = 1 → 1 ≤ c.fillBudget.toNat) := by
    cases kind <;> simp [PhaseKind.fillFlag, PhaseKind.code]
  simp only [RawPhase.check, RawPhase.Passes, claimSizeOk, usableRating, firstRating, hk, hfill,
    PhaseKind.eq_steam_iff, Bool.and_eq_true, Bool.or_eq_true, decide_eq_true_eq, beq_iff_eq, and_assoc]

theorem RawPhase.check_duration (he : r.stop = e.code) :
    r.check c k kind e .duration = true ↔ r.Passes c k .duration := by
  simp only [RawPhase.check, RawPhase.Passes, durationOk, he, ← EndCond.eq_time_iff]
  split <;> simp

theorem RawPhase.check_limit (he : r.stop = e.code) :
    r.check c k kind e .limit = true ↔ r.Passes c k .limit := by
  simp only [RawPhase.check, RawPhase.Passes, limitOk, he, ← EndCond.eq_time_iff]
  split <;> simp

theorem RawPhase.passes_kind (hk : r.kind = kind.code) : r.Passes c k .kind := by
  have hrange := kind.code_range
  rw [← hk] at hrange
  exact hrange

theorem RawPhase.check_endCondition (hk : r.kind = kind.code) (he : r.stop = e.code) :
    r.check c k kind e .endCondition = true ↔ r.Passes c k .endCondition := by
  simp only [RawPhase.check, RawPhase.Passes, endAllowed_iff, hk, he]

/-- The tests are the checks of R109 to R113, for a record whose kind allows its end condition. -/
theorem RawPhase.check_iff (hk : r.kind = kind.code) (he : r.stop = e.code) (hallowed : endAllowed kind e = true)
    (q : CycleReason) : r.check c k kind e q = true ↔ r.Passes c k q := by
  cases q with
  | kind => exact iff_of_true rfl (RawPhase.passes_kind hk)
  | endCondition => exact RawPhase.check_endCondition hk he
  | targetRange => exact RawPhase.check_targetRange hk he hallowed
  | classTemp => exact RawPhase.check_classTemp
  | classSteam => exact RawPhase.check_classSteam hk
  | claimShape => exact RawPhase.check_claimShape hk
  | claimSize => exact RawPhase.check_claimSize hk
  | duration => exact RawPhase.check_duration he
  | limit => exact RawPhase.check_limit he
  | pad => exact Iff.rfl
  | count | cls | cycleLength => exact iff_of_true rfl trivial

/-! ## The check of one record (R118) -/

/-- The record fails the check of a reason and passes every check before it (R118). -/
def RawPhase.FailsFirst (c : Settings) (k : CareClass) (r : RawPhase) (reason : CycleReason) : Prop :=
  ¬ r.Passes c k reason ∧ ∀ q, q.code < reason.code → r.Passes c k q

/-- The phase that a record with the given kind and end condition becomes (R119). -/
def RawPhase.phase (r : RawPhase) (kind : PhaseKind) (e : EndCond) : Phase :=
  ⟨kind, e, r.onLimit == 1, r.temp, r.hum, r.power, r.vent, r.duration, r.limit⟩

/-- A record without a kind fails there: no earlier reason concerns a record. -/
theorem RawPhase.failsFirst_kind (h : PhaseKind.ofCode? r.kind = none) : r.FailsFirst c k .kind := by
  have hrange := (PhaseKind.ofCode?_eq_none_iff r.kind).mp h
  refine ⟨fun ⟨hlo, hhi⟩ => by omega, fun q hq => ?_⟩
  cases q with
  | count | cls => trivial
  | _ => simp [CycleReason.code] at hq

/-- A record of a kind that does not allow its end condition fails there. -/
theorem RawPhase.failsFirst_endCondition (hk : r.kind = kind.code) (h : ¬ r.Passes c k .endCondition) :
    r.FailsFirst c k .endCondition := by
  refine ⟨h, fun q hq => ?_⟩
  cases q with
  | count | cls => trivial
  | kind => exact RawPhase.passes_kind hk
  | _ => simp [CycleReason.code] at hq

theorem RawPhase.not_passes_endCondition_of_none (h : EndCond.ofCode? r.stop = none) :
    ¬ r.Passes c k .endCondition := by
  have hstop := EndCond.ofCode?_eq_none h
  simp only [RawPhase.Passes, List.mem_cons, Prod.mk.injEq, List.not_mem_nil, or_false]
  omega

/-- The answer of the first test to fail, step by step. -/
theorem elim_find?_cons {α β : Type} (p : α → Bool) (x : α) (xs : List α) (y : β) (f : α → β) :
    ((x :: xs).find? p).elim y f = if p x then f x else (xs.find? p).elim y f := by
  rw [List.find?_cons]
  cases p x <;> rfl

/-- Of a record whose kind allows its end condition, the check answers the first test to fail (R118). -/
theorem checkPhase_of_allowed (hk : PhaseKind.ofCode? r.kind = some kind) (he : EndCond.ofCode? r.stop = some e)
    (hallowed : endAllowed kind e = true) : checkPhase c k r =
      (CycleReason.inOrder.find? (fun q => !r.check c k kind e q)).elim (.ok (r.phase kind e)) .error := by
  simp only [checkPhase, hk, he, hallowed, CycleReason.inOrder, elim_find?_cons, RawPhase.check, Bool.not_true,
    Bool.not_not, ← Bool.not_and, Bool.false_eq_true, if_false]
  rfl

/-- The first test to fail is at the reason the record fails first. -/
theorem RawPhase.failsFirst_of_find? (hk : r.kind = kind.code) (he : r.stop = e.code)
    (hallowed : endAllowed kind e = true) {reason : CycleReason}
    (h : CycleReason.inOrder.find? (fun q => !r.check c k kind e q) = some reason) : r.FailsFirst c k reason := by
  have hfind : (r.checks c k kind e).find? (fun x => !x.2) = some (reason.code, r.check c k kind e reason) := by
    rw [RawPhase.checks, List.find?_map]
    exact congrArg (Option.map _) h
  obtain ⟨hfails, hbefore⟩ := not_passesAt_of_find?_eq_some RawPhase.checks_sorted hfind
  have hpasses : ∀ q, PassesAt (r.checks c k kind e) q.code ↔ r.Passes c k q := fun q =>
    (RawPhase.passesAt_checks q).trans (RawPhase.check_iff hk he hallowed q)
  exact ⟨fun hp => hfails ((hpasses reason).mpr hp), fun q hq => (hpasses q).mp (hbefore q.code hq)⟩

theorem RawPhase.becomes_phase (hk : r.kind = kind.code) (he : r.stop = e.code) (hlimit : r.Passes c k .limit) :
    r.Becomes (r.phase kind e) := by
  obtain ⟨-, honLimit⟩ := hlimit
  have hflag : (if r.onLimit == 1 then 1 else 0) = r.onLimit := by
    rcases Nat.le_one_iff_eq_zero_or_eq_one.mp honLimit with h | h <;> rw [h] <;> rfl
  exact ⟨hk.symm, he.symm, hflag, rfl, rfl, rfl, rfl, rfl, rfl⟩

/-- All that the check of one record can answer: the reason it fails first, or the phase it becomes (R118, R119). -/
theorem checkPhase_cases (c : Settings) (k : CareClass) (r : RawPhase) :
    (∃ reason, checkPhase c k r = .error reason ∧ r.FailsFirst c k reason) ∨
      (∃ p, checkPhase c k r = .ok p ∧ (∀ q, r.Passes c k q) ∧ r.Becomes p) := by
  cases hkind : PhaseKind.ofCode? r.kind with
  | none => exact .inl ⟨.kind, by simp [checkPhase, hkind], RawPhase.failsFirst_kind hkind⟩
  | some kind =>
    have hk := ((PhaseKind.ofCode?_eq_some_iff r.kind kind).mp hkind).symm
    cases hstop : EndCond.ofCode? r.stop with
    | none =>
      exact .inl ⟨.endCondition, by simp [checkPhase, hkind, hstop],
        RawPhase.failsFirst_endCondition hk (RawPhase.not_passes_endCondition_of_none hstop)⟩
    | some e =>
      have he := ((EndCond.ofCode?_eq_some_iff r.stop e).mp hstop).symm
      cases hallowed : endAllowed kind e with
      | false =>
        have hfails : ¬ r.Passes c k .endCondition := fun hp =>
          absurd ((RawPhase.check_endCondition hk he).mpr hp) (Bool.eq_false_iff.mp hallowed)
        exact .inl ⟨.endCondition, by simp [checkPhase, hkind, hstop, hallowed],
          RawPhase.failsFirst_endCondition hk hfails⟩
      | true =>
        rw [checkPhase_of_allowed hkind hstop hallowed]
        cases hfind : CycleReason.inOrder.find? (fun q => !r.check c k kind e q) with
        | some reason => exact .inl ⟨reason, rfl, RawPhase.failsFirst_of_find? hk he hallowed hfind⟩
        | none =>
          have hall : ∀ q, r.Passes c k q := fun q => (RawPhase.check_iff hk he hallowed q).mp
            (by simpa using List.find?_eq_none.mp hfind q q.mem_inOrder)
          exact .inr ⟨_, rfl, hall, RawPhase.becomes_phase hk he (hall .limit)⟩

theorem RawPhase.FailsFirst.unique {reason reason' : CycleReason} (h : r.FailsFirst c k reason)
    (h' : r.FailsFirst c k reason') : reason = reason' := by
  obtain ⟨hfails, hbefore⟩ := h
  obtain ⟨hfails', hbefore'⟩ := h'
  have hle : ¬ reason.code < reason'.code := fun hlt => hfails (hbefore' reason hlt)
  have hge : ¬ reason'.code < reason.code := fun hlt => hfails' (hbefore reason' hlt)
  exact CycleReason.code_injective (by omega)

/-- A record becomes one phase at most: its codes and its on-limit field are the phase's. -/
theorem RawPhase.Becomes.unique {p p' : Phase} (h : r.Becomes p) (h' : r.Becomes p') : p = p' := by
  obtain ⟨hkind, hstop, hlimit, htemp, hhum, hpower, hvent, hduration, hmost⟩ := h
  obtain ⟨hkind', hstop', hlimit', htemp', hhum', hpower', hvent', hduration', hmost'⟩ := h'
  have hflag : p.onLimitFault = p'.onLimitFault := by
    have hsame := hlimit.trans hlimit'.symm
    cases hp : p.onLimitFault <;> cases hp' : p'.onLimitFault <;> simp [hp, hp'] at hsame <;> rfl
  have hkinds := PhaseKind.code_injective (hkind.trans hkind'.symm)
  have hstops := EndCond.code_injective (hstop.trans hstop'.symm)
  cases p
  cases p'
  simp_all only

/-- The time of the phase is the time of its record (R112). -/
theorem RawPhase.Becomes.time {p : Phase} (h : r.Becomes p) : p.time = r.time := by
  obtain ⟨-, hstop, -, -, -, -, -, hduration, hlimit⟩ := h
  simp only [Phase.time, RawPhase.time, EndCond.eq_time_iff, hstop, hduration, hlimit]

end

/-! ## The check of a run of records (R114, R117) -/

/-- The sum of the times of the staged records before an index (R114). -/
def Memory.timeBefore (m : Memory) (i : Nat) : Nat := ((List.range i).map (fun j => (m.rawPhase j).time)).sum

theorem Memory.timeBefore_succ (m : Memory) (i : Nat) :
    m.timeBefore (i + 1) = m.timeBefore i + (m.rawPhase i).time := by
  simp [Memory.timeBefore, List.range_succ]

/-- The staged record passes every check, and the sum of the times up to it is within the class's minutes (R114). -/
def Memory.SlotPasses (m : Memory) (c : Settings) (k : CareClass) (i : Nat) : Prop :=
  (∀ q, (m.rawPhase i).Passes c k q) ∧ m.timeBefore (i + 1) ≤ k.minutes * 60

/-- The staged record is refused with a reason: the check it fails first, or the running sum (R114, R118). -/
def Memory.SlotFails (m : Memory) (c : Settings) (k : CareClass) (i : Nat) (reason : CycleReason) : Prop :=
  (m.rawPhase i).FailsFirst c k reason ∨
    (reason = .cycleLength ∧ (∀ q, (m.rawPhase i).Passes c k q) ∧ k.minutes * 60 < m.timeBefore (i + 1))

/-- The load is refused at a record with a reason, every record before it passing (R118). -/
def Memory.LoadFails (m : Memory) (c : Settings) (k : CareClass) (count i : Nat) (reason : CycleReason) : Prop :=
  i < count ∧ (∀ j < i, m.SlotPasses c k j) ∧ m.SlotFails c k i reason

/-- The load passes and the phases carry the records (R119). -/
def Memory.LoadPasses (m : Memory) (c : Settings) (k : CareClass) (count : Nat) (ps : List Phase) : Prop :=
  (∀ i < count, m.SlotPasses c k i) ∧ ps.length = count ∧ ∀ i p, ps[i]? = some p → (m.rawPhase i).Becomes p

section
variable {m : Memory} {c : Settings} {k : CareClass} {count : Nat}

theorem Memory.SlotFails.not_passes {i : Nat} {reason : CycleReason} (h : m.SlotFails c k i reason) :
    ¬ m.SlotPasses c k i := by
  rintro ⟨hall, hsum⟩
  rcases h with ⟨hfails, -⟩ | ⟨-, -, hlong⟩
  · exact hfails (hall reason)
  · omega

theorem Memory.SlotFails.unique {i : Nat} {reason reason' : CycleReason} (h : m.SlotFails c k i reason)
    (h' : m.SlotFails c k i reason') : reason = reason' := by
  rcases h with hfirst | ⟨rfl, hall, -⟩
  · rcases h' with hfirst' | ⟨-, hall', -⟩
    · exact hfirst.unique hfirst'
    · exact absurd (hall' reason) hfirst.1
  · rcases h' with hfirst' | ⟨rfl, -, -⟩
    · exact absurd (hall reason') hfirst'.1
    · rfl

theorem Memory.LoadFails.unique {i i' : Nat} {reason reason' : CycleReason} (h : m.LoadFails c k count i reason)
    (h' : m.LoadFails c k count i' reason') : i = i' ∧ reason = reason' := by
  obtain ⟨-, hbefore, hfails⟩ := h
  obtain ⟨-, hbefore', hfails'⟩ := h'
  have hle : ¬ i < i' := fun hlt => hfails.not_passes (hbefore' i hlt)
  have hge : ¬ i' < i := fun hlt => hfails'.not_passes (hbefore i' hlt)
  obtain rfl : i = i' := by omega
  exact ⟨rfl, hfails.unique hfails'⟩

theorem Memory.LoadPasses.unique {ps ps' : List Phase} (h : m.LoadPasses c k count ps)
    (h' : m.LoadPasses c k count ps') : ps = ps' := by
  obtain ⟨-, hlength, hbecomes⟩ := h
  obtain ⟨-, hlength', hbecomes'⟩ := h'
  refine List.ext_getElem (hlength.trans hlength'.symm) fun i hi hi' => ?_
  exact (hbecomes i _ (List.getElem?_eq_getElem hi)).unique (hbecomes' i _ (List.getElem?_eq_getElem hi'))

theorem Memory.LoadPasses.not_fails {ps : List Phase} {i : Nat} {reason : CycleReason}
    (h : m.LoadPasses c k count ps) : ¬ m.LoadFails c k count i reason := by
  rintro ⟨hi, -, hfails⟩
  exact hfails.not_passes (h.1 i hi)

/-- All that the check can answer from a record on: the first record refused, or the phases (R117 to R119). -/
theorem checkPhases_cases (m : Memory) (c : Settings) (k : CareClass) (n i : Nat) :
    (∃ j reason, checkPhases c k i (m.timeBefore i) ((List.range' i n).map m.rawPhase) = .error (j, reason) ∧
        (i ≤ j ∧ j < i + n) ∧ (∀ l, i ≤ l → l < j → m.SlotPasses c k l) ∧ m.SlotFails c k j reason) ∨
      (∃ ps, checkPhases c k i (m.timeBefore i) ((List.range' i n).map m.rawPhase) = .ok ps ∧
        (∀ l, i ≤ l → l < i + n → m.SlotPasses c k l) ∧ ps.length = n ∧
        ∀ l p, ps[l]? = some p → (m.rawPhase (i + l)).Becomes p) := by
  induction n generalizing i with
  | zero => exact .inr ⟨[], rfl, fun l hl hl' => by omega, rfl, fun l p h => by simp at h⟩
  | succ n ih =>
    rw [List.range'_succ, List.map_cons, checkPhases]
    rcases checkPhase_cases c k (m.rawPhase i) with ⟨reason, hcheck, hfirst⟩ | ⟨p, hcheck, hall, hbecomes⟩
    · exact .inl ⟨i, reason, by rw [hcheck], by omega, fun l hl hl' => by omega, .inl hfirst⟩
    · simp only [hcheck, hbecomes.time, ← m.timeBefore_succ]
      by_cases hlong : k.minutes * 60 < m.timeBefore (i + 1)
      · exact .inl ⟨i, .cycleLength, by rw [if_pos hlong], by omega, fun l hl hl' => by omega,
          .inr ⟨rfl, hall, hlong⟩⟩
      · have hslot : m.SlotPasses c k i := ⟨hall, by omega⟩
        rw [if_neg hlong]
        rcases ih (i + 1) with
          ⟨j, reason, hrest, hrange, hbefore, hfails⟩ | ⟨ps, hrest, hpass, hlength, hphases⟩
        · refine .inl ⟨j, reason, by rw [hrest], by omega, fun l hl hl' => ?_, hfails⟩
          rcases Nat.eq_or_lt_of_le hl with rfl | hlt
          · exact hslot
          · exact hbefore l hlt hl'
        · refine .inr ⟨p :: ps, by rw [hrest], fun l hl hl' => ?_, by simp [hlength], fun l q hq => ?_⟩
          · rcases Nat.eq_or_lt_of_le hl with rfl | hlt
            · exact hslot
            · exact hpass l hlt (by omega)
          · cases l with
            | zero =>
              obtain rfl : p = q := by simpa using hq
              exact hbecomes
            | succ l =>
              rw [List.getElem?_cons_succ] at hq
              have hnext := hphases l q hq
              rwa [Nat.add_assoc, Nat.add_comm 1 l] at hnext

/-! ## The whole check (R116 to R118) -/

theorem CareClass.isValid_iff (k : CareClass) : k.isValid = true ↔
    (30 ≤ k.maxTemp.toNat ∧ k.maxTemp.toNat ≤ 75) ∧ k.steam.toNat ≤ 1 ∧
      1 ≤ k.lenHi.toNat * 256 + k.lenLo.toNat ∧ k.lenHi.toNat * 256 + k.lenLo.toNat ≤ 600 := by
  have hminutes : k.minutes = k.lenHi.toNat * 256 + k.lenLo.toNat := rfl
  simp only [CareClass.isValid, CareClass.fieldChecks, List.all_cons, List.all_nil, Bool.and_eq_true,
    decide_eq_true_eq, and_true, hminutes]

theorem checkCycle_of_count {cls : Nat} (h : count < 1 ∨ 16 < count) :
    checkCycle c m count cls = .error (255, .count) := if_pos h

theorem checkCycle_of_class {cls : Nat} (hlo : 1 ≤ count) (hhi : count ≤ 16)
    (h : ∀ k, c.careClass? cls = some k → k.isUnused = true ∨ k.isValid = false) :
    checkCycle c m count cls = .error (255, .cls) := by
  rw [checkCycle, if_neg (by omega)]
  cases hclass : c.careClass? cls with
  | none => rfl
  | some k =>
    have hbad : (k.isUnused || !k.isValid) = true := by simpa using h k hclass
    exact if_pos hbad

theorem checkCycle_of_usable {cls : Nat} (hlo : 1 ≤ count) (hhi : count ≤ 16) (hclass : c.careClass? cls = some k)
    (hused : k.isUnused = false) (hvalid : k.isValid = true) : checkCycle c m count cls =
      (checkPhases c k 0 (m.timeBefore 0) ((List.range' 0 count).map m.rawPhase)).map (fun ps => (k, ps)) := by
  rw [checkCycle, if_neg (by omega)]
  simp only [hclass, hused, hvalid, Bool.not_true, Bool.or_self, Bool.false_eq_true, if_false, List.range_eq_range',
    show m.timeBefore 0 = 0 from rfl]
  cases checkPhases c k 0 0 ((List.range' 0 count).map m.rawPhase) <;> rfl

/-- All that the check of a load with a usable class can answer (R117 to R119). -/
theorem checkCycle_cases {cls : Nat} (hlo : 1 ≤ count) (hhi : count ≤ 16) (hclass : c.careClass? cls = some k)
    (hused : k.isUnused = false) (hvalid : k.isValid = true) :
    (∃ i reason, checkCycle c m count cls = .error (i, reason) ∧ m.LoadFails c k count i reason) ∨
      (∃ ps, checkCycle c m count cls = .ok (k, ps) ∧ m.LoadPasses c k count ps) := by
  rw [checkCycle_of_usable hlo hhi hclass hused hvalid]
  rcases checkPhases_cases m c k count 0 with
    ⟨i, reason, hcheck, ⟨-, hi⟩, hbefore, hfails⟩ | ⟨ps, hcheck, hpass, hlength, hphases⟩
  · exact .inl ⟨i, reason, by rw [hcheck]; rfl, by omega, fun j hj => hbefore j (Nat.zero_le j) hj, hfails⟩
  · exact .inr ⟨ps, by rw [hcheck]; rfl, fun i hi => hpass i (Nat.zero_le i) (by omega), hlength,
      fun i p hp => by simpa using hphases i p hp⟩

theorem checkCycle_eq_ok_iff {cls : Nat} (hlo : 1 ≤ count) (hhi : count ≤ 16) (hclass : c.careClass? cls = some k)
    (hused : k.isUnused = false) (hvalid : k.isValid = true) (k' : CareClass) (ps : List Phase) :
    checkCycle c m count cls = .ok (k', ps) ↔ k' = k ∧ m.LoadPasses c k count ps := by
  rcases checkCycle_cases (m := m) hlo hhi hclass hused hvalid with
    ⟨i, reason, hcheck, hfails⟩ | ⟨qs, hcheck, hpasses⟩
  · rw [hcheck]
    exact ⟨nofun, fun ⟨_, hpasses⟩ => absurd hfails hpasses.not_fails⟩
  · rw [hcheck]
    refine ⟨fun h => ?_, fun ⟨hk, hpasses'⟩ => by rw [hk, hpasses.unique hpasses']⟩
    cases h
    exact ⟨rfl, hpasses⟩

theorem checkCycle_eq_error_iff {cls : Nat} (hlo : 1 ≤ count) (hhi : count ≤ 16)
    (hclass : c.careClass? cls = some k) (hused : k.isUnused = false) (hvalid : k.isValid = true) (i : Nat)
    (reason : CycleReason) :
    checkCycle c m count cls = .error (i, reason) ↔ m.LoadFails c k count i reason := by
  rcases checkCycle_cases (m := m) hlo hhi hclass hused hvalid with
    ⟨j, q, hcheck, hfails⟩ | ⟨ps, hcheck, hpasses⟩
  · rw [hcheck]
    refine ⟨fun h => ?_, fun hfails' => ?_⟩
    · cases h
      exact hfails
    · obtain ⟨rfl, rfl⟩ := hfails.unique hfails'
      rfl
  · rw [hcheck]
    exact ⟨nofun, fun hfails => absurd hfails hpasses.not_fails⟩

end

/-- Settles O15: the check of a record answers its first failing test, the check of the records the first record
refused, and a load is refused at one record with one reason at most. -/
theorem loadedPhasesAreSound : Obligations.LoadedPhasesAreSound := by
  unfold Obligations.LoadedPhasesAreSound
  intro c m count cls
  exact ⟨checkCycle_of_count, checkCycle_of_class, fun k => ⟨k.isUnused_iff, k.isValid_iff⟩, fun h => dif_pos h,
    fun h => dif_neg h, fun i => rfl, fun k hlo hhi hclass hused hvalid =>
      ⟨checkCycle_eq_ok_iff hlo hhi hclass hused hvalid, checkCycle_eq_error_iff hlo hhi hclass hused hvalid⟩⟩

end Sys2Proof.Machine
end

section
/-! SUPPORT. LOAD CYCLE at the take (R116 to R120): its answer by the engine's state and the check, and the two
statements about it. -/

namespace Sys2Proof.Machine

/-- The engine states in which LOAD CYCLE checks the staged cycle (R116). -/
def EngineState.TakesLoad (b : EngineState) : Prop := b = .idle ∨ b = .loaded ∨ b = .complete

theorem exec_loadCycle (s : State) : exec .loadCycle s = .next (refresh (hostCommand 0x10 loadCycle s)) := rfl

theorem loadCycle_of_underWay {s : State} (h : s.engine.state.underWay = true) : loadCycle s = (s, .busy) := by
  unfold loadCycle
  cases hs : s.engine.state with
  | running b => rfl
  | held => rfl
  | idle | loaded | faulted | complete => simp [hs, EngineState.underWay] at h

theorem loadCycle_of_faulted {s : State} (h : s.engine.state = .faulted) : loadCycle s = (s, .faultPending) := by
  simp only [loadCycle, h]

theorem loadCycle_of_refused {s : State} {index : Nat} {reason : CycleReason} (h : s.engine.state.TakesLoad)
    (hcheck : checkCycle s.cfg s.port.staging s.port.param1.toNat s.port.param2.toNat = .error (index, reason)) :
    loadCycle s = (s, .badCycle index reason) := by
  rcases h with h | h | h <;> simp only [loadCycle, h, hcheck]

theorem loadCycle_of_passes {s : State} {k : CareClass} {ps : List Phase} (h : s.engine.state.TakesLoad)
    (hcheck : checkCycle s.cfg s.port.staging s.port.param1.toNat s.port.param2.toNat = .ok (k, ps)) :
    loadCycle s = (s.setEngine (s.engine.loadedWith s.port.param2.toNat k ps), .ok) := by
  rcases h with h | h | h <;> simp only [loadCycle, h, hcheck]

/-- Settles O13: the engine's state decides first, and a load that passes replaces the engine's cycle table alone. -/
theorem loadCycleAnswers : Obligations.LoadCycleAnswers := by
  unfold Obligations.LoadCycleAnswers
  refine fun s hfree => ⟨fun hs => ?busy, fun hs => ?faulted, fun k ps hs hcheck => ?loads⟩
  case busy =>
    exact answersOnly_of_unchanged (exec_loadCycle s) hfree (loadCycle_of_underWay (s := s.atTake 0x10) hs)
  case faulted =>
    exact answersOnly_of_unchanged (exec_loadCycle s) hfree (loadCycle_of_faulted (s := s.atTake 0x10) hs)
  case loads =>
    obtain ⟨hanswers, hbase, hloads⟩ := answered_refresh (s := s) (code := 0x10) .ok
      (u := (s.atTake 0x10).setEngine (s.engine.loadedWith s.port.param2.toNat k ps)) rfl
    rw [exec_loadCycle, hostCommand_of_free hfree, loadCycle_of_passes (s := s.atTake 0x10) hs hcheck]
    exact ⟨_, rfl, hanswers, ⟨rfl, rfl⟩, rfl, rfl, rfl, hbase, ⟨rfl, rfl, rfl, rfl⟩, hloads⟩

/-- Settles O14: a load that its check refuses leaves the state as the take found it. -/
theorem refusedLoadChangesNothing : Obligations.RefusedLoadChangesNothing := by
  unfold Obligations.RefusedLoadChangesNothing
  intro s index reason hfree hs hcheck
  exact ⟨rfl, rfl,
    answersOnly_of_unchanged (exec_loadCycle s) hfree (loadCycle_of_refused (s := s.atTake 0x10) hs hcheck)⟩

end Sys2Proof.Machine
end

section
/-! SUPPORT. A sample at the engine (R111, R137, R138, R146, R153, R156): what the end test, the tank test and LEVEL_LOW
do, that they do not look at the load outputs, and the statement about them. -/

namespace Sys2Proof.Machine

/-! ## What the engine does with a sample -/

/-- The end conditions in the words of R111. -/
theorem Phase.endMet_iff (p : Phase) (m : Sample) : p.endMet m = true ↔
    (p.stop = .temp ∧ ∃ x, m.air = some x ∧ if p.kind = .cool then x ≤ 2 * (p.temp : Int) else 2 * (p.temp : Int) ≤ x) ∨
    (p.stop = .humid ∧ ∃ h, m.hum = some h ∧ if p.kind = .steam then p.hum ≤ h else h ≤ p.hum) ∨
    (p.stop = .level ∧ m.reservoir = .full) := by
  cases hstop : p.stop with
  | time => simp [Phase.endMet, hstop]
  | temp =>
    cases hair : m.air with
    | none => simp [Phase.endMet, hstop, hair]
    | some x => by_cases hcool : p.kind = .cool <;> simp [Phase.endMet, hstop, hair, hcool]
  | humid =>
    cases hhum : m.hum with
    | none => simp [Phase.endMet, hstop, hhum]
    | some h => by_cases hsteam : p.kind = .steam <;> simp [Phase.endMet, hstop, hhum, hsteam]
  | level => simp [Phase.endMet, hstop]

theorem endTest_of_met {s : State} (hs : s.engine.state = .running .active)
    (hmet : s.engine.current.endMet s.meas.sample = true) : endTest s = endPhase 1 s := if_pos ⟨hs, hmet⟩

theorem endTest_of_unmet {s : State}
    (h : s.engine.state ≠ .running .active ∨ s.engine.current.endMet s.meas.sample = false) : endTest s = s := by
  refine if_neg ?_
  rintro ⟨hs, hmet⟩
  rcases h with h | h
  · exact h hs
  · rw [h] at hmet
    cases hmet

theorem PhaseKind.makesCondensate_iff (kind : PhaseKind) :
    kind.makesCondensate = true ↔ kind = .steam ∨ kind = .dry := by
  cases kind <;> decide

/-- Entry into HELD without a purge: the reason alone is held and the share given up (R141). -/
theorem enterHeld_none (r : HoldReason) (left : Option Substate) (s : State) :
    (enterHeld r left none s).engine =
        { s.engine with state := .held, holds := HoldSet.empty.put r true, purge := .stopped } ∧
      (enterHeld r left none s).out = s.listReleased ∧
      (enterHeld r left none s).port.ring =
        s.port.ring.after .holdOn s.engine.index r.code (HoldSet.empty.put r true).code (leftCode left) 0 := by
  simp only [enterHeld, giveUpShare_eq]
  exact ⟨rfl, rfl, rfl⟩

section
variable {s : State}

/-- A reason that is held already is not added again (R141). -/
theorem addReason_of_held {r : HoldReason} (h : s.engine.holds.has r = true) : addReason r s = s := if_pos h

/-- A new reason is recorded and reported (R141). -/
theorem addReason_of_new {r : HoldReason} (h : s.engine.holds.has r = false) : addReason r s =
    (s.setEngine { s.engine with holds := s.engine.holds.put r true }).setPort
      { s.port with
        ring := s.port.ring.after .holdOn s.engine.index r.code (s.engine.holds.put r true).code 0 0 } :=
  if_neg (Bool.eq_false_iff.mp h)

theorem tankTest_of_running {b : Substate} (hfull : s.meas.sample.tankFull = true)
    (hkind : s.engine.current.kind.makesCondensate = true) (hs : s.engine.state = .running b) :
    tankTest s = enterHeld .tank (some b) none s := by
  simp only [tankTest, hfull, hkind, hs, if_true]

theorem tankTest_of_held (hfull : s.meas.sample.tankFull = true)
    (hkind : s.engine.current.kind.makesCondensate = true) (hs : s.engine.state = .held) :
    tankTest s = addReason .tank s := by
  simp only [tankTest, hfull, hkind, hs, if_true]

theorem tankTest_of_not_underWay (hfull : s.meas.sample.tankFull = true) (hs : s.engine.state.underWay = false) :
    tankTest s = s := by
  rw [tankTest, if_pos hfull]
  cases hstate : s.engine.state with
  | running b => simp [hstate, EngineState.underWay] at hs
  | held => simp [hstate, EngineState.underWay] at hs
  | idle | loaded | faulted | complete => split <;> rfl

theorem tankTest_of_no_condensate (hfull : s.meas.sample.tankFull = true)
    (hkind : s.engine.current.kind.makesCondensate = false) : tankTest s = s := by
  simp only [tankTest, hfull, hkind, if_true, Bool.false_eq_true, if_false]

theorem tankTest_of_room (hroom : s.meas.sample.tankFull = false)
    (h : s.engine.state ≠ .held ∨ s.engine.holds.tank = false) : tankTest s = s := by
  rw [tankTest, if_neg (Bool.eq_false_iff.mp hroom), if_neg]
  rintro ⟨hs, htank⟩
  rcases h with h | h
  · exact h hs
  · rw [h] at htank
    cases htank

theorem tankTest_of_emptied (hroom : s.meas.sample.tankFull = false) (hs : s.engine.state = .held)
    (htank : s.engine.holds.tank = true) : tankTest s = removeReason .tank s := by
  rw [tankTest, if_neg (Bool.eq_false_iff.mp hroom), if_pos ⟨hs, htank⟩]

theorem levelLow_of_low (hlow : s.meas.sample.reservoir = .low) (hs : s.engine.state.underWay = true)
    (hfirst : s.meas.lowReported = false) : levelLow s =
      (s.setMeas { s.meas with lowReported := true }).setPort
        { s.port with ring := s.port.ring.after .levelLow s.engine.index 1 s.engine.current.kind.code 0 0 } := by
  rw [levelLow, if_pos ⟨hlow, hs, Bool.eq_false_iff.mp hfirst⟩, hlow]
  rfl

theorem levelLow_of_not (h : s.meas.sample.reservoir ≠ .low ∨ s.engine.state.underWay = false ∨
    s.meas.lowReported = true) : levelLow s = s := by
  refine if_neg ?_
  rintro ⟨hlow, hs, hfirst⟩
  rcases h with h | h | h
  · exact h hlow
  · rw [h] at hs
    cases hs
  · exact hfirst h

end

/-! ## The engine does not look at the load outputs (R124, R153) -/

theorem State.setLoad_setLoad (s : State) (l l' : Load) : (s.setLoad l).setLoad l' = s.setLoad l' := rfl

/-- An operation takes a state with other load outputs to the same state with those outputs. -/
def IgnoresLoad (f : State → State) : Prop := ∀ s l, f (s.setLoad l) = (f s).setLoad l

theorem State.setEngine_setLoad (s : State) (e : Engine) (l : Load) :
    (s.setLoad l).setEngine e = (s.setEngine e).setLoad l := rfl

theorem emit_ignoresLoad (k : EventKind) (a b c d e : Nat) : IgnoresLoad (emit k a b c d e) := fun _ _ => rfl

theorem giveUpShare_ignoresLoad : IgnoresLoad giveUpShare := by
  intro s l
  rw [giveUpShare_eq, giveUpShare_eq]
  rfl

theorem postClaim_ignoresLoad : IgnoresLoad postClaim := by
  intro s l
  unfold postClaim
  cases hm : s.isMember with
  | true =>
    rw [postIntent_of_member _ hm, postIntent_of_member (s := s.setLoad l) _ hm]
    rfl
  | false => rw [postIntent_of_not_member _ hm, postIntent_of_not_member (s := s.setLoad l) _ hm]

theorem setSub_ignoresLoad (b : Substate) : IgnoresLoad (setSub b) := fun _ _ => rfl

theorem enterFaulted_ignoresLoad (code : FaultCode) (sub : FaultSub) : IgnoresLoad (enterFaulted code sub) := by
  intro s l
  simp only [enterFaulted, giveUpShare_eq]
  rfl

theorem enterHeld_ignoresLoad (r : HoldReason) (left : Option Substate) : IgnoresLoad (enterHeld r left none) := by
  intro s l
  simp only [enterHeld, giveUpShare_eq]
  rfl

theorem addReason_ignoresLoad (r : HoldReason) : IgnoresLoad (addReason r) := by
  intro s l
  cases h : s.engine.holds.has r with
  | true => rw [addReason_of_held h, addReason_of_held (s := s.setLoad l) h]
  | false =>
    rw [addReason_of_new h, addReason_of_new (s := s.setLoad l) h]
    rfl

theorem claimPhase_ignoresLoad : IgnoresLoad claimPhase := by
  intro s l
  have hown : (s.setLoad l).own = s.own := rfl
  have hbusy : (s.setLoad l).intentBusy = s.intentBusy := rfl
  simp only [claimPhase, State.setLoad_engine, hown, hbusy, giveUpShare_ignoresLoad _ l, setSub_ignoresLoad _ _ l,
    postClaim_ignoresLoad _ l]
  cases s.own <;> simp only <;> split_ifs <;> rfl

theorem entryTests_ignoresLoad (left : Option Substate) : IgnoresLoad (entryTests left) := by
  intro s l
  have hmember : (s.setLoad l).isMember = s.isMember := rfl
  simp only [entryTests, State.setLoad_engine, State.setLoad_meas, hmember, enterHeld_ignoresLoad _ _ s l,
    enterFaulted_ignoresLoad _ _ s l, setSub_ignoresLoad _ s l, claimPhase_ignoresLoad s l]
  split_ifs <;> rfl

theorem enterFresh_ignoresLoad (index : Nat) (left : Option Substate) : IgnoresLoad (enterFresh index left) := by
  intro s l
  simp only [enterFresh, State.setLoad_engine, State.setEngine_setLoad, emit_ignoresLoad _ _ _ _ _ _ _ l,
    entryTests_ignoresLoad left _ l]

theorem takeReason_ignoresLoad (r : HoldReason) : IgnoresLoad (takeReason r) := fun _ _ => rfl

theorem leaveHeld_ignoresLoad : IgnoresLoad leaveHeld := by
  intro s l
  simp only [leaveHeld, State.setLoad_engine, State.setEngine_setLoad, entryTests_ignoresLoad none _ l]

theorem removeReason_ignoresLoad (r : HoldReason) : IgnoresLoad (removeReason r) := by
  intro s l
  simp only [removeReason, takeReason_ignoresLoad r s l, State.setLoad_engine, leaveHeld_ignoresLoad _ l]
  split_ifs <;> rfl

theorem completeCycle_ignoresLoad : IgnoresLoad completeCycle := by
  intro s l
  simp only [completeCycle, giveUpShare_eq]
  rfl

theorem endPhase_ignoresLoad (outcome : Nat) : IgnoresLoad (endPhase outcome) := by
  intro s l
  simp only [endPhase, State.setLoad_engine, emit_ignoresLoad _ _ _ _ _ _ s l, enterFresh_ignoresLoad _ _ _ l,
    completeCycle_ignoresLoad _ l]
  split_ifs <;> rfl

theorem endTest_ignoresLoad : IgnoresLoad endTest := by
  intro s l
  simp only [endTest, State.setLoad_engine, State.setLoad_meas, endPhase_ignoresLoad 1 s l]
  split_ifs <;> rfl

theorem tankTest_ignoresLoad : IgnoresLoad tankTest := by
  intro s l
  simp only [tankTest, State.setLoad_engine, State.setLoad_meas, enterHeld_ignoresLoad _ _ s l,
    addReason_ignoresLoad _ s l, removeReason_ignoresLoad _ s l]
  cases s.engine.state <;> simp only <;> split_ifs <;> rfl

theorem levelLow_ignoresLoad : IgnoresLoad levelLow := by
  intro s l
  by_cases h : s.meas.sample.reservoir ≠ .low ∨ s.engine.state.underWay = false ∨ s.meas.lowReported = true
  · rw [levelLow_of_not h, levelLow_of_not (s := s.setLoad l) h]
  · obtain ⟨hlow, hs, hfirst⟩ : s.meas.sample.reservoir = .low ∧ s.engine.state.underWay = true ∧
        s.meas.lowReported = false := by simpa [not_or] using h
    rw [levelLow_of_low hlow hs hfirst, levelLow_of_low (s := s.setLoad l) hlow hs hfirst]
    rfl

/-- The Load Drive's part of a sample changes the load outputs alone (R153). -/
theorem regulate_eq (s : State) : regulate s = s.setLoad (regulate s).load := by
  unfold regulate
  (repeat' split) <;> rfl

/-! ## The order of the two takers (R153) -/

/-- With no condition present there is nothing to report (R158). -/
theorem reportAll_of_absent {b : Bool} {cs : List Condition} (h : ∀ x ∈ cs, x.present = false) (s : State) :
    reportAll b cs s = s := by
  unfold reportAll
  induction cs with
  | nil => rfl
  | cons x rest ih =>
    have hx := h x List.mem_cons_self
    rw [List.foldl_cons, hx]
    exact ih fun y hy => h y (List.mem_cons_of_mem x hy)

/-- With no condition present the engine makes its two tests and LEVEL_LOW follows; the load outputs alone depend on the
order of the two takers (R153). -/
theorem sampleStep_of_calm {m : Sample} {s : State} (d : Bool) (h : ∀ x ∈ conditionsAt s m, x.present = false) :
    (sampleStep d m s).setLoad s.load = (levelLow (tankTest (endTest (storeSample m s)))).setLoad s.load := by
  have hignores : ∀ u l, levelLow (tankTest (endTest (u.setLoad l))) = (levelLow (tankTest (endTest u))).setLoad l :=
    fun u l => by rw [endTest_ignoresLoad u l, tankTest_ignoresLoad _ l, levelLow_ignoresLoad _ l]
  have hengine : ∀ u, engineSample s.engine.state.underWay (conditionsAt s m) u = levelLow (tankTest (endTest u)) :=
    fun u => by rw [engineSample, reportAll_of_absent h]
  cases d with
  | true =>
    simp only [sampleStep, hengine, if_true]
    rw [regulate_eq, refresh, State.setLoad_setLoad, hignores, State.setLoad_setLoad]
  | false =>
    simp only [sampleStep, hengine, Bool.false_eq_true, if_false]
    rw [regulate_eq, refresh, State.setLoad_setLoad, State.setLoad_setLoad]

/-- Settles O54: the engine's tests do not look at the load outputs, so that the order of the two takers shows in these
alone; each test by the engine's state. -/
theorem samplesDriveTheEngine : Obligations.SamplesDriveTheEngine := by
  unfold Obligations.SamplesDriveTheEngine
  refine ⟨fun d m s hhot hdry hblind => ?calm, Phase.endMet_iff, fun s => ⟨endTest_of_met, endTest_of_unmet,
    ⟨fun hfull hkind => ?full, fun hfull hkind => ?otherKind,
      fun hroom => ⟨tankTest_of_room hroom, fun hs htank => ?emptied⟩⟩, levelLow_of_low, levelLow_of_not⟩⟩
  case calm =>
    refine sampleStep_of_calm d ?_
    simp [conditionsAt, hhot, hdry, hblind]
  case full =>
    have hcondensate := (PhaseKind.makesCondensate_iff _).mpr hkind
    refine ⟨fun b hs => ?_, fun hs htank => ?_, fun hs htank => ?_, tankTest_of_not_underWay hfull⟩
    · rw [tankTest_of_running hfull hcondensate hs]
      exact enterHeld_none .tank (some b) s
    · rw [tankTest_of_held hfull hcondensate hs]
      exact addReason_of_new htank
    · rw [tankTest_of_held hfull hcondensate hs]
      exact addReason_of_held htank
  case otherKind =>
    exact tankTest_of_no_condensate hfull (Bool.eq_false_iff.mpr fun hc => hkind ((PhaseKind.makesCondensate_iff _).mp hc))
  case emptied =>
    rw [tankTest_of_emptied hroom hs htank]
    exact ⟨fun hset => if_neg (Bool.eq_false_iff.mp hset), fun hset => if_pos hset⟩

end Sys2Proof.Machine
end

section
/-! SUPPORT. That the host's commands, the port, the timers, the cabinet's inputs and a tick keep the engine consistent, and
the statement about every step (R123, R174). -/

namespace Sys2Proof.Machine

/-! ## What consistency depends on -/

/-- Consistency reads the engine's state, its hold-reason set and its purge timer, and the Fault Record. -/
theorem EngineInv.congr {s t : State} (h : EngineInv s) (hstate : t.engine.state = s.engine.state)
    (hholds : t.engine.holds = s.engine.holds) (hpurge : t.engine.purge = s.engine.purge) (hfault : t.fault = s.fault) :
    EngineInv t := by
  obtain ⟨hmarked, hheld, hdoor⟩ := h
  exact ⟨by rw [hfault, hstate]; exact hmarked, by rw [hholds, hstate]; exact hheld,
    by rw [hpurge, hstate, hholds]; exact hdoor⟩

/-- Between cycles a consistent engine is calm. -/
theorem EngineInv.calm_of_idle {s : State} (h : EngineInv s)
    (hs : s.engine.state = .idle ∨ s.engine.state = .loaded ∨ s.engine.state = .complete) : Calm s := by
  rcases hs with hs | hs | hs <;> exact h.calm (by simp [hs]) (by simp [hs])

/-- An engine with a cycle under way has no fault recorded. -/
theorem EngineInv.noFault {s : State} (h : EngineInv s) (hs : s.engine.state.underWay = true) : s.fault = none := by
  have hne : s.engine.state ≠ .faulted := fun hf => by simp [hf, EngineState.underWay] at hs
  exact Option.not_isSome_iff_eq_none.mp fun hsome => hne (h.faultMarked.mp hsome)

/-! ## Resets (R192) -/

theorem resetPart_calm (inp : Inputs) (s : State) : Calm (resetPart inp s) := ⟨rfl, rfl, rfl⟩

theorem resetPart_inv (inp : Inputs) (s : State) : EngineInv (resetPart inp s) :=
  (resetPart_calm inp s).inv (fun h => nomatch h) (fun h => nomatch h)

/-! ## Station commands (chapter 5) -/

theorem startStation_inv {s : State} (h : EngineInv s) : EngineInv (startStation s).1 := by
  unfold startStation
  split
  · split
    · exact h
    · exact enterGathering_inv _ _ (engineInv_of_side (by simp) h)
  · exact h

theorem leaveStation_inv {s : State} (h : EngineInv s) : EngineInv (leaveStation s).1 := by
  unfold leaveStation
  split
  · split
    · exact h
    · exact engineInv_of_side (by simp) h
  · exact h

theorem rejoin_inv {s : State} (h : EngineInv s) : EngineInv (rejoin s).1 := by
  unfold rejoin
  split
  · exact resync_inv _ (engineInv_of_side (by simp) h)
  · exact enterGathering_inv _ _ (engineInv_of_side (by simp) h)
  all_goals exact h

/-! ## Cycle commands (chapters 6, 7 and 9) -/

/-- An accepted load leaves a calm engine calm (R119). -/
theorem loadCycle_inv {s : State} (h : EngineInv s) : EngineInv (loadCycle s).1 := by
  have hload : Calm s → ∀ cls k ps, EngineInv (s.setEngine (s.engine.loadedWith cls k ps)) :=
    fun hcalm _ _ _ => Calm.inv ⟨hcalm.noFault, hcalm.noHolds, hcalm.noPurge⟩ (fun hs => nomatch hs) (fun hs => nomatch hs)
  unfold loadCycle
  split
  case h_1 hs | h_2 hs | h_3 hs =>
    split
    · exact h
    · exact hload (h.calm_of_idle (by simp [hs])) _ _ _
  all_goals exact h

/-- An accepted START CYCLE finds the engine calm and enters a phase (R128). -/
theorem startCycle_inv {s : State} (h : EngineInv s) : EngineInv (startCycle s).1 := by
  unfold startCycle
  split
  case h_5 hs | h_6 hs =>
    split
    · exact h
    split
    · exact h
    · exact enterFresh_inv _ _ (calm_of_side (by simp) (h.calm_of_idle (by simp [hs])))
  all_goals exact h

theorem hold_inv {s : State} (h : EngineInv s) : EngineInv (hold s).1 := by
  unfold hold
  split
  · next hs => exact enterHeld_inv _ _ _ (running_calm h hs) (.inl rfl)
  · next hs => exact addReason_inv _ h hs
  all_goals exact h

theorem resume_inv {s : State} (h : EngineInv s) : EngineInv (resume s).1 := by
  unfold resume
  split
  · next hs =>
    split
    · exact removeReason_inv _ h hs (fun hr => nomatch hr)
    · exact h
  all_goals exact h

/-- An aborted cycle leaves the engine calm (R149). -/
theorem abortCycle_inv {s : State} (h : EngineInv s) : EngineInv (abortCycle s).1 := by
  have habort : s.engine.state.underWay = true → EngineInv (giveUpShare (s.setEngine s.engine.aborted)) := fun hs =>
    engineInv_of_side (s := s.setEngine s.engine.aborted) (by simp)
      (Calm.inv ⟨h.noFault hs, rfl, rfl⟩ (fun hs => nomatch hs) (fun hs => nomatch hs))
  unfold abortCycle
  split
  · next hs => exact habort (by rw [hs]; rfl)
  · next hs => exact habort (by rw [hs]; rfl)
  all_goals exact h

/-- A cleared fault leaves a calm engine (R179). -/
theorem clearFault_inv {s : State} (h : EngineInv s) : EngineInv (clearFault s).1 := by
  unfold clearFault
  split
  · next hs =>
    have hne : s.engine.state ≠ .held := by simp [hs]
    have hholds : s.engine.holds = HoldSet.empty :=
      HoldSet.eq_empty (by simpa [hne] using h.holdsOnlyHeld)
    have hpurge : s.engine.purge = .stopped := not_not.mp fun hp => hne (h.purgeOnlyDoor hp).1
    split
    · exact h
    · exact Calm.inv ⟨rfl, hholds, hpurge⟩ (fun hs => nomatch hs) (fun hs => nomatch hs)
  all_goals exact h

/-! ## The take (R187, R188) -/

/-- Every code's effects at its take keep the engine consistent (R189). -/
theorem decideCode_inv {s : State} (code : Byte) (h : EngineInv s) : EngineInv (decideCode code s).1 := by
  unfold decideCode
  split
  · exact startStation_inv h
  split
  · exact leaveStation_inv h
  split
  · exact rejoin_inv h
  split
  · exact loadCycle_inv h
  split
  · exact startCycle_inv h
  split
  · exact hold_inv h
  split
  · exact resume_inv h
  split
  · exact abortCycle_inv h
  split
  · exact clearFault_inv h
  split
  · exact engineInv_of_side (snapshot_engineSide s) h
  · exact h

theorem closeTransaction_inv {s : State} (h : EngineInv s) : EngineInv (closeTransaction s) := by
  have hended : EngineInv (endTransaction s) := engineInv_of_side (by simp) h
  unfold closeTransaction takeStored
  split
  · split
    · split
      · exact resetPart_inv _ _
      · split
        · exact engineInv_of_side (by simp) h
        · exact engineInv_of_side (answered_engineSide ..) (decideCode_inv _ hended)
    · exact hended
  all_goals exact hended

theorem discardCommand_inv {s : State} (h : EngineInv s) : EngineInv (discardCommand s) := by
  unfold discardCommand
  split
  · exact closeTransaction_inv (engineInv_of_side (setTxn_engineSide _ s) h)
  all_goals exact engineInv_of_side (by simp) h

/-- A host command keeps the engine consistent as its decision does (R188). -/
theorem hostCommand_inv {s : State} (code : Byte) {act : State → State × Result}
    (hact : ∀ u, EngineInv u → EngineInv (act u).1) (h : EngineInv s) : EngineInv (hostCommand code act s) := by
  unfold hostCommand
  split
  · exact discardCommand_inv h
  · exact engineInv_of_side (answered_engineSide ..) (hact _ (engineInv_of_side (by simp) h))

/-! ## Byte times of the port (R181, R182) -/

/-- A store into the configuration touches the engine's stale mark alone (R121). -/
theorem writeByte_inv {s : State} (a : Nat) (v : Byte) (t : OpenTxn) (h : EngineInv s) :
    EngineInv (writeByte a v t s) := by
  unfold writeByte writeConfig
  split
  · split
    · exact engineInv_of_side (setTxn_engineSide _ s) h
    · exact h.congr rfl rfl rfl rfl
  split
  · exact engineInv_of_side (writeNextOut_engineSide v s) h
  · exact engineInv_of_side (writeRegister_engineSide a v t s) h

theorem innerByte_inv {s : State} (b : SpiByte) (h : EngineInv s) : EngineInv (innerByte b s) := by
  have hlow : EngineInv (s.setPort { s.port with sdo := .low }) := engineInv_of_side (by simp) h
  unfold innerByte
  split
  · exact h.congr rfl rfl rfl rfl
  · unfold dataByte
    simp only []
    split
    · split
      · exact engineInv_of_side (advanceAddr_engineSide _) (writeByte_inv _ _ _ hlow)
      · exact hlow
    · exact engineInv_of_side (by simp) h
    · exact hlow
  all_goals exact h

theorem portByte_inv {s : State} (b : SpiByte) (h : EngineInv s) : EngineInv (portByte b s) := by
  have hbegun : EngineInv (if b.starts then beginHeader (closeTransaction s) else s) := by
    split
    · exact (closeTransaction_inv h).congr rfl rfl rfl rfl
    · exact h
  have hinner := innerByte_inv b hbegun
  unfold portByte
  simp only []
  split
  · exact closeTransaction_inv hinner
  · exact hinner

/-! ## Samples and the door (R153, R157) -/

theorem report_inv {s : State} (c : FaultCode) (onset same : Bool) (h : EngineInv s) :
    EngineInv (report c onset same s) := by
  unfold report
  split
  · exact raiseFault_inv _ h
  · exact raiseFault_inv _ h
  · split
    · exact laterFault_inv _ h
    · exact h
  all_goals exact h

theorem reportAll_inv (same : Bool) (cs : List Condition) {s : State} (h : EngineInv s) :
    EngineInv (reportAll same cs s) := by
  unfold reportAll
  induction cs generalizing s with
  | nil => exact h
  | cons c rest ih =>
    refine ih ?_
    show EngineInv (if c.present then report c.code (!c.before) same s else s)
    split
    · exact report_inv _ _ _ h
    · exact h

theorem endTest_inv {s : State} (h : EngineInv s) : EngineInv (endTest s) := by
  unfold endTest
  split
  · next hmet => exact endPhase_inv _ (running_calm h hmet.1)
  · exact h

theorem tankTest_inv {s : State} (h : EngineInv s) : EngineInv (tankTest s) := by
  unfold tankTest
  split
  · split
    · split
      · next hs => exact enterHeld_inv _ _ _ (running_calm h hs) (.inl rfl)
      · next hs => exact addReason_inv _ h hs
      all_goals exact h
    · exact h
  · split
    · next hheld => exact removeReason_inv _ h hheld.1 (fun hr => nomatch hr)
    · exact h

theorem engineSample_inv {s : State} (same : Bool) (cs : List Condition) (h : EngineInv s) :
    EngineInv (engineSample same cs s) :=
  engineInv_of_side (levelLow_engineSide _) (tankTest_inv (endTest_inv (reportAll_inv same cs h)))

theorem sampleStep_inv {s : State} (d : Bool) (m : Sample) (h : EngineInv s) : EngineInv (sampleStep d m s) := by
  have hstored : EngineInv (storeSample m s) := engineInv_of_side (storeSample_engineSide m s) h
  unfold sampleStep
  simp only []
  split
  · exact engineSample_inv _ _ (engineInv_of_side (by simp) hstored)
  · exact engineInv_of_side ((regulate_engineSide _).trans (refresh_engineSide _)) (engineSample_inv _ _ hstored)

theorem takeSample_inv {s : State} (inp : Sensors) (h : EngineInv s) : EngineInv (takeSample inp s) :=
  sampleStep_inv _ _ (engineInv_of_side (by simp) h)

theorem changeDoor_inv {s : State} (h : EngineInv s) : EngineInv (changeDoor s) := by
  have hmeas : ∀ m, EngineInv (s.setMeas m) := fun m => engineInv_of_side (State.setMeas_engineSide s m) h
  unfold changeDoor
  simp only []
  split
  · split
    · exact doorOpened_inv (hmeas _)
    · exact doorClosed_inv (hmeas _)
  · exact h

/-! ## Timers and the line's events -/

theorem selfLeaseOut_inv {s : State} (h : EngineInv s) : EngineInv (selfLeaseOut s) := by
  have htable : EngineInv (s.setTable { s.table with selfLease := .runOut }) := engineInv_of_side (by simp) h
  unfold selfLeaseOut
  simp only []
  split
  · split
    · exact resync_inv _ htable
    · exact htable
  · exact h

theorem idleReached_inv {s : State} (d : Bool) (h : EngineInv s) : EngineInv (idleReached d s) := by
  unfold idleReached
  split
  · exact atIdle_inv d h
  · exact atIdle_inv d h
  all_goals exact h

theorem arbitrationLostAt_inv {s : State} (bit : Nat) (h : EngineInv s) : EngineInv (arbitrationLostAt bit s) := by
  unfold arbitrationLostAt
  split
  · split
    · split
      · exact loseArbitration_inv _ h
      · exact h
    · exact h
  all_goals exact h

theorem frameAbandoned_inv {s : State} (d : Bool) (h : EngineInv s) : EngineInv (frameAbandoned d s) := by
  have hcounted : EngineInv (bump .receptionErrors s) := engineInv_of_side (by simp) h
  unfold frameAbandoned
  split
  · exact atIdle_inv d hcounted
  · exact atIdle_inv d hcounted
  all_goals exact h

/-! ## A tick (R136, log 9) -/

/-- A timer that is set stays set, and one that runs stays running. -/
theorem Timer.tick_running (t : Timer) : (t.tick = .stopped ↔ t = .stopped) ∧ t.tick.isRunning = t.isRunning := by
  cases t <;> simp [Timer.tick, Timer.isRunning]

/-- The clocks touch the purge timer's time left alone of what consistency reads (R136). -/
theorem advanceTimers_inv {s : State} (h : EngineInv s) : EngineInv (advanceTimers s) := by
  obtain ⟨hmarked, hheld, hdoor⟩ := h
  obtain ⟨hstopped, hruns⟩ := s.engine.purge.tick_running
  refine ⟨hmarked, hheld, fun hset => ?_⟩
  obtain ⟨hs, hdoor, hrun⟩ := hdoor fun hp => hset (hstopped.mpr hp)
  exact ⟨hs, hdoor, hruns.trans hrun⟩

/-- Every event of time keeps the engine consistent (log 9). -/
theorem timeEvents_keepEngine {e : TimeEvent} (he : e ∈ timeEvents) {s : State} (h : EngineInv s) :
    EngineInv (e.act s) := by
  simp only [timeEvents, List.mem_append, List.mem_map, List.mem_cons, List.not_mem_nil, or_false] at he
  rcases he with (rfl | ⟨i, -, rfl⟩) | rfl | rfl | rfl | rfl | rfl | rfl | rfl | rfl | rfl
  · exact engineInv_of_side (complete_engineSide s) h
  · exact engineInv_of_side (peerLeaseOut_engineSide (i + 1) s) h
  · exact engineInv_of_side (renewalOut_engineSide s) h
  · exact selfLeaseOut_inv h
  · exact engineInv_of_side (windowOut_engineSide s) h
  · exact rejoinTimeout_inv h
  · exact engineInv_of_side (membershipTimeout_engineSide s) h
  · exact changeDoor_inv h
  · exact purgeRanOut_inv h
  · exact takeSample_inv _ h
  · exact idleReached_inv false h

theorem fireAll_inv {es : List TimeEvent} (hes : es ⊆ timeEvents) {s : State} (h : EngineInv s) :
    EngineInv (es.foldl TimeEvent.fire s) := by
  induction es generalizing s with
  | nil => exact h
  | cons e rest ih =>
    obtain ⟨he, hrest⟩ := List.cons_subset.mp hes
    refine ih hrest ?_
    unfold TimeEvent.fire
    split
    · exact engineInv_of_side (refresh_engineSide _) (timeEvents_keepEngine he h)
    · exact h

theorem firePhaseEnd_inv {s : State} (due : Bool) (h : EngineInv s) : EngineInv (firePhaseEnd due s) := by
  unfold firePhaseEnd phaseTimeUp
  split
  · split
    · exact durationReached_inv h
    · exact limitReached_inv h
  · exact h

theorem tick_inv {s : State} (h : EngineInv s) : EngineInv (tick s) :=
  engineInv_of_side (refresh_engineSide _)
    (firePhaseEnd_inv _ (fireAll_inv (List.Subset.refl _) (advanceTimers_inv h)))

/-! ## Every command -/

theorem finish_inv {u t : State} (h : EngineInv u) (he : finish u = .next t) : EngineInv t := by
  cases he
  exact engineInv_of_side (refresh_engineSide u) h

/-- Every command keeps the engine consistent. -/
theorem exec_inv {c : Instr} {s t : State} (h : EngineInv s) (he : exec c s = .next t) : EngineInv t := by
  have frame : ∀ k r void, finish (frameEnd k r void s) = .next t → EngineInv t := fun k r void =>
    finish_inv (frameEnd_inv k r void h)
  have quiet : ∀ u : State, u.engineSide = s.engineSide → finish u = .next t → EngineInv t := fun u hu =>
    finish_inv (engineInv_of_side hu h)
  have command : ∀ code (act : State → State × Result), (∀ {u}, EngineInv u → EngineInv (act u).1) →
      finish (hostCommand code act s) = .next t → EngineInv t := fun code act hact =>
    finish_inv (hostCommand_inv code (fun _ => hact) h)
  cases c with
  | startStation => exact command _ _ startStation_inv he
  | leaveStation => exact command _ _ leaveStation_inv he
  | rejoin => exact command _ _ rejoin_inv he
  | loadCycle => exact command _ _ loadCycle_inv he
  | startCycle => exact command _ _ startCycle_inv he
  | hold => exact command _ _ hold_inv he
  | resume => exact command _ _ resume_inv he
  | abortCycle => exact command _ _ abortCycle_inv he
  | clearFault => exact command _ _ clearFault_inv he
  | snapshotPeers => exact command _ _ (engineInv_of_side (snapshot_engineSide _)) he
  | clearCounters =>
    refine finish_inv ?_ he
    split
    · exact discardCommand_inv h
    · exact engineInv_of_side (by simp) h
  | restart inp =>
    refine finish_inv ?_ he
    split
    · exact discardCommand_inv h
    · exact resetPart_inv inp s
  | badCommand code =>
    refine finish_inv ?_ he
    split
    · exact engineInv_of_side (endTransaction_engineSide s) h
    · exact hostCommand_inv _ (fun _ hu => hu) h
  | powerOn inp | resetPin inp => exact finish_inv (resetPart_inv inp s) he
  | configWrite b | nextOutWrite b | registerWrite b | readLatch b => exact finish_inv (portByte_inv b h) he
  | idle d => exact finish_inv (idleReached_inv d h) he
  | falseStart => exact quiet _ (falseStarted_engineSide s) he
  | arbitrationLost bit => exact finish_inv (arbitrationLostAt_inv bit h) he
  | abandonedFrame d => exact finish_inv (frameAbandoned_inv d h) he
  | expire r | leave r | release r | claim r | rollcall r | standing r => exact frame _ r false he
  | undefinedKindFrame k r => exact frame k r false he
  | voidFrame k r => exact frame k r true he
  | peerLeaseTimeout peer => exact quiet _ (peerLeaseOut_engineSide peer.toNat s) he
  | renewalTimeout => exact quiet _ (renewalOut_engineSide s) he
  | selfLease => exact finish_inv (selfLeaseOut_inv h) he
  | rollcallWindowTimeout => exact quiet _ (windowOut_engineSide s) he
  | autoRejoin => exact finish_inv (rejoinTimeout_inv h) he
  | membershipTimeout => exact quiet _ (membershipTimeout_engineSide s) he
  | sampleSet inp => exact finish_inv (takeSample_inv inp h) he
  | doorEdge => exact quiet _ (edgeDoor_engineSide s) he
  | doorChange => exact finish_inv (changeDoor_inv h) he
  | purgeTimeout => exact finish_inv (purgeRanOut_inv h) he
  | phaseDurationReached => exact finish_inv (durationReached_inv h) he
  | phaseLimitReached => exact finish_inv (limitReached_inv h) he
  | completion => exact quiet _ (complete_engineSide s) he

/-- Settles O6: an empty queue is a tick, any other a command, and each keeps the engine consistent. -/
theorem engineStaysConsistent : Obligations.EngineStaysConsistent := by
  unfold Obligations.EngineStaysConsistent
  intro s t h hstep
  unfold step at hstep
  split at hstep
  · cases hstep
    exact tick_inv h
  · next c rest _ => exact exec_inv (engineInv_of_side (State.setPending_engineSide s rest) h) hstep

end Sys2Proof.Machine
end

section
/-! SUPPORT. The engine's operations read out as one equation between states each (R125, R129, R130, R139, R141, R144,
R173): what is set, what is posted and which event is generated. -/

namespace Sys2Proof.Machine

/-! ## Postings (R125) -/

@[simp] theorem postClaim_engine (s : State) : (postClaim s).engine = s.engine :=
  congrArg Prod.fst (postClaim_engineSide s)

/-- The state with the engine in this substate and the current phase's CLAIM posted (R125). -/
def State.claimed (s : State) (b : Substate) : State :=
  (s.setEngine { s.engine with state := .running b }).setOut (s.out.post .intent (.claim s.engine.current.request))

/-- A MEMBER that enters a substate and claims (R125, R130). -/
theorem postClaim_setSub {s : State} (b : Substate) (hm : s.control.station = .member) :
    postClaim (setSub b s) = s.claimed b :=
  postIntent_of_member (s := setSub b s) _ (s.isMember_iff.mpr hm)

/-! ## What the engine can change -/

/-- The state with another engine, Fault Record, Measurement Unit, list and event ring. -/
def State.changed (s : State) (e : Engine) (f : Option FaultRecord) (m : Meas) (o : OutList) (r : Ring) : State :=
  { s with engine := e, fault := f, meas := m, out := o, port := { s.port with ring := r } }

section
variable (s : State) (e : Engine) (f : Option FaultRecord) (m : Meas) (o : OutList) (r : Ring)

@[simp] theorem State.changed_engine : (s.changed e f m o r).engine = e := rfl
@[simp] theorem State.changed_fault : (s.changed e f m o r).fault = f := rfl
@[simp] theorem State.changed_meas : (s.changed e f m o r).meas = m := rfl
@[simp] theorem State.changed_out : (s.changed e f m o r).out = o := rfl
@[simp] theorem State.changed_port : (s.changed e f m o r).port = { s.port with ring := r } := rfl
@[simp] theorem State.changed_line : (s.changed e f m o r).line = s.line := rfl
@[simp] theorem State.changed_table : (s.changed e f m o r).table = s.table := rfl
@[simp] theorem State.changed_control : (s.changed e f m o r).control = s.control := rfl
@[simp] theorem State.changed_load : (s.changed e f m o r).load = s.load := rfl
@[simp] theorem State.changed_pending : (s.changed e f m o r).pending = s.pending := rfl
@[simp] theorem State.changed_free : (s.changed e f m o r).free = s.free := rfl
@[simp] theorem State.changed_cfg : (s.changed e f m o r).cfg = s.cfg := rfl

end

/-! ## Holds, faults, purges and the end of a cycle (R139, R141, R144, R173) -/

theorem enterHeld_none_eq (r : HoldReason) (left : Option Substate) (s : State) : enterHeld r left none s =
    s.changed { s.engine with state := .held, holds := HoldSet.empty.put r true, purge := .stopped } s.fault s.meas
      s.listReleased
      (s.port.ring.after .holdOn s.engine.index r.code (HoldSet.empty.put r true).code (leftCode left) 0) := by
  simp only [enterHeld, giveUpShare_eq]
  rfl

theorem enterFaulted_eq (code : FaultCode) (sub : FaultSub) (s : State) : enterFaulted code sub s =
    s.changed s.engine.faulted (some (s.faultRecord code sub)) s.meas s.listReleased
      (s.port.ring.after .fault s.engine.index code.code s.engine.current.kind.code sub.code 0) := by
  simp only [enterFaulted, giveUpShare_eq]
  rfl

theorem endPurge_eq (s : State) : endPurge s =
    s.changed { s.engine with purge := .stopped } s.fault s.meas s.listReleased s.port.ring := giveUpShare_eq _

theorem completeCycle_eq (s : State) : completeCycle s =
    s.changed { s.engine with state := .complete } s.fault s.meas s.listReleased
      (s.port.ring.after .cycleDone s.engine.index s.engine.phases.length s.engine.cls 0 0) := by
  simp only [completeCycle, giveUpShare_eq]
  rfl

theorem addReason_eq {r : HoldReason} {s : State} (h : s.engine.holds.has r = false) : addReason r s =
    s.changed { s.engine with holds := s.engine.holds.put r true } s.fault s.meas s.out
      (s.port.ring.after .holdOn s.engine.index r.code (s.engine.holds.put r true).code 0 0) := addReason_of_new h

/-- A reason taken, with its HOLD_OFF (R145, R146, R148). -/
theorem takeReason_eq (r : HoldReason) (s : State) : takeReason r s =
    s.changed { s.engine with holds := s.engine.holds.put r false } s.fault s.meas s.out
      (s.port.ring.after .holdOff s.engine.index r.code (s.engine.holds.put r false).code 0 0) := rfl

/-! ## The tests of a phase entry (R129) -/

/-- None of the first three tests of a phase entry stops it: the door is closed, the tank is not in the way, and there is
water where steam needs it (R129). -/
structure State.EntryClear (s : State) : Prop where
  door : s.meas.doorOpen = false
  tank : s.engine.current.kind.makesCondensate = true → s.meas.sample.tankFull = false
  water : s.engine.current.kind = .steam → s.meas.sample.reservoir ≠ .empty

section
variable {s : State} (left : Option Substate)

theorem entryTests_of_ajar (hdoor : s.meas.doorOpen = true) : entryTests left s = enterHeld .door left none s :=
  if_pos hdoor

theorem entryTests_of_tank (hdoor : s.meas.doorOpen = false) (hkind : s.engine.current.kind.makesCondensate = true)
    (hfull : s.meas.sample.tankFull = true) : entryTests left s = enterHeld .tank left none s := by
  simp [entryTests, hdoor, hkind, hfull]

theorem entryTests_of_dry (hdoor : s.meas.doorOpen = false)
    (htank : s.engine.current.kind.makesCondensate = true → s.meas.sample.tankFull = false)
    (hkind : s.engine.current.kind = .steam) (hempty : s.meas.sample.reservoir = .empty) :
    entryTests left s = enterFaulted .noWater .entry s := by
  have hroom : s.meas.sample.tankFull = false := htank (by rw [hkind]; rfl)
  simp [entryTests, hdoor, hkind, hroom, hempty]

theorem entryTests_of_clear (h : s.EntryClear) :
    entryTests left s = if s.control.station = .member then claimPhase s else setSub .regain s := by
  obtain ⟨hdoor, htank, hwater⟩ := h
  have hroom : (s.engine.current.kind.makesCondensate && s.meas.sample.tankFull) = false := by simpa using htank
  have hwet : (s.engine.current.kind == .steam && s.meas.sample.reservoir == .empty) = false := by simpa using hwater
  simp only [entryTests, hdoor, hroom, hwet, Bool.false_eq_true, if_false]
  by_cases hm : s.control.station = .member <;> simp [State.isMember, hm]

end

/-! ## Claiming a phase (R130) -/

section
variable {s : State}

theorem claimPhase_of_zero (hzero : s.engine.current.request.isZero = true) :
    claimPhase s = (s.setOut s.listReleased).setEngine { s.engine with state := .running .active } := by
  simp only [claimPhase, hzero, if_true, giveUpShare_eq]
  rfl

/-- A share that covers makes the engine ACTIVE at once, without a posting if it is the very request (R130). -/
theorem claimPhase_of_covered {a : Share} (hm : s.control.station = .member)
    (hzero : s.engine.current.request.isZero = false) (hown : s.own = .admitted a)
    (hcovers : a.covers s.engine.current.request = true) :
    claimPhase s = if a.sameAmounts s.engine.current.request && !s.intentBusy then setSub .active s
      else s.claimed .active := by
  simp only [claimPhase, hzero, hown, hcovers, Bool.false_eq_true, if_true, if_false, postClaim_setSub _ hm]

theorem claimPhase_of_uncovered (hm : s.control.station = .member)
    (hzero : s.engine.current.request.isZero = false)
    (hown : s.own.coversRequest s.engine.current.request = false) : claimPhase s = s.claimed .claiming := by
  simp only [claimPhase, hzero, Bool.false_eq_true, if_false, postClaim_setSub _ hm]
  cases h : s.own with
  | none | waiting req g => rfl
  | admitted a =>
    have hnot : a.covers s.engine.current.request = false := by simpa [h, Holding.coversRequest] using hown
    simp only [hnot, Bool.false_eq_true, if_false]

/-- A MEMBER whose record holds nothing enters a phase that needs a share by claiming it (R129, R130). -/
theorem entryTests_claims (left : Option Substate) (h : s.EntryClear) (hm : s.control.station = .member)
    (hown : s.own = .none) (hzero : s.engine.current.request.isZero = false) :
    entryTests left s = s.claimed .claiming := by
  rw [entryTests_of_clear left h, if_pos hm, claimPhase_of_uncovered hm hzero (by rw [hown]; rfl)]

end

/-! ## Entering a phase afresh, and the end of a phase (R129, R138) -/

theorem PhaseKind.fillFlag_eq (kind : PhaseKind) : kind.fillFlag = if kind = .fill then 1 else 0 := by
  cases kind <;> rfl

/-- The state in which the tests of a phase entered afresh are made (R129). -/
def State.phaseStarted (s : State) (index : Nat) : State :=
  let p := s.engine.phases.getD index Phase.blank
  (s.setEngine { s.engine with index := index, phaseTimer := 0, limitTimer := 0 }).setPort
    { s.port with ring := s.port.ring.after .phaseStart index p.kind.code p.power p.vent p.kind.fillFlag }

theorem enterFresh_eq (index : Nat) (left : Option Substate) (s : State) :
    enterFresh index left s = entryTests left (s.phaseStarted index) := rfl

/-- The state with the phase's PHASE_END generated (R138). -/
def State.phaseEnded (s : State) (outcome : Nat) : State :=
  let secs := wholeSeconds s.engine.phaseTimer
  s.setPort { s.port with
    ring := s.port.ring.after .phaseEnd s.engine.index s.engine.current.kind.code outcome (secs / 256) secs }

theorem endPhase_of_next {s : State} (outcome : Nat) (h : s.engine.index + 1 < s.engine.phases.length) :
    endPhase outcome s = enterFresh (s.engine.index + 1) (some .active) (s.phaseEnded outcome) := if_pos h

theorem endPhase_of_last {s : State} (outcome : Nat) (h : s.engine.phases.length ≤ s.engine.index + 1) :
    endPhase outcome s = completeCycle (s.phaseEnded outcome) := if_neg (Nat.not_lt.mpr h)

/-! ## The frames of a change -/

/-- Every load output is off. -/
structure Load.AllOff (l : Load) : Prop where
  heaters : l.heaters = 0
  steam : l.steam = 0
  vent : l.vent = 0
  fan : l.fan = false
  valve : l.valve = false

/-- With load request off the gate is closed and every load off (R161, R168). -/
theorem Load.follow_of_off {s : State} (h : s.engine.loadRequest = .off) : (Load.follow s).AllOff := by
  have hgate : s.gateOpen = false := by simp [State.gateOpen, h]
  simp only [Load.follow, hgate, Bool.false_eq_true, if_false]
  exact ⟨rfl, rfl, rfl, by simp [Load.closed, h, fanOn], rfl⟩

/-- One state comes out of another by such a change, the Load Drive has followed it, and all else is kept. -/
structure Becomes (s t : State) (e : Engine) (f : Option FaultRecord) (m : Meas) (o : OutList) (r : Ring) : Prop where
  engine : t.engine = e
  fault : t.fault = f
  meas : t.meas = m
  out : t.out = o
  ring : t.port.ring = r
  line : t.line = s.line
  table : t.table = s.table
  control : t.control = s.control
  base : KeepsBase s t
  follows : LoadsFollow s t
  off : e.loadRequest = .off → t.load.AllOff

section
variable {s : State} {e : Engine} {f : Option FaultRecord} {m : Meas} {o : OutList} {r : Ring}

/-- A row that changes the state so and no more. -/
theorem becomes_refresh : Becomes s (refresh (s.changed e f m o r)) e f m o r where
  engine := by simp
  fault := by simp
  meas := by simp
  out := by simp
  ring := by simp
  line := by simp
  table := by simp
  control := by simp
  base := by simp [KeepsBase]
  follows := loadsFollow_refresh_of_load rfl
  off h := Load.follow_of_off h

/-- A command with an answer that changes the state so at its take (R187, R188). -/
theorem exec_of_changed {c : Instr} {code : Byte} {act : State → State × Result} {answer : Result}
    (hexec : exec c s = .next (refresh (hostCommand code act s))) (hfree : codeRefused code s = false)
    (hact : act (s.atTake code) = ((s.atTake code).changed e f m o r, answer)) :
    ∃ t, exec c s = .next t ∧ Answers code answer s t ∧ t.port.counters = (endTransaction s).port.counters ∧
      Becomes s t e f m o r := by
  rw [hostCommand_of_free hfree, hact] at hexec
  refine ⟨_, hexec, ?answers, by simp [answered, State.atTake], ?becomes⟩
  case answers => simp [Answers, KeepsHostData, answered, State.atTake]
  case becomes =>
    refine { engine := ?_, fault := ?_, meas := ?_, out := ?_, ring := ?_, line := ?_, table := ?_, control := ?_,
             base := ?_, follows := loadsFollow_refresh_of_load rfl, off := fun h => Load.follow_of_off h }
    all_goals simp [KeepsBase, answered, State.atTake]

end

end Sys2Proof.Machine
end

section
/-! SUPPORT. The notifications at the engine that the statements about the bank's answers need beside ADMITTED and NONE,
and these statements (R131 to R135, R142, R151, R172). -/

namespace Sys2Proof.Machine

/-- The engine claims its phase again: CLAIMING, and as a MEMBER with the phase's CLAIM posted (R131, R133). -/
theorem reclaim_leaves {s t : State} (h : t = postClaim (setSub .claiming s)) :
    t.engine = { s.engine with state := .running .claiming } ∧
      (s.control.station = .member → t = s.claimed .claiming) := by
  subst h
  exact ⟨postClaim_engine _, postClaim_setSub .claiming⟩

/-! ## NONE and ADMITTED (R131, R133) -/

section
variable {s : State}

theorem notify_none_reclaims (h : s.engine.state = .running .waiting ∨
      (s.engine.state = .running .active ∧ s.engine.current.request.isZero = false)) :
    notify .none s = postClaim (setSub .claiming s) := by
  rcases h with h | ⟨h, hzero⟩ <;> simp [notify, noticeNone, *]

theorem notify_admitted_reclaims (h : s.engine.state = .running .waiting ∨
      (s.engine.state = .running .active ∧ s.engine.current.request.isZero = false))
    (hc : s.own.coversRequest s.engine.current.request = false) :
    notify .admitted s = postClaim (setSub .claiming s) := by
  rcases h with h | ⟨h, hzero⟩ <;> simp [notify, noticeAdmitted, *]

/-! ## WAITING, LOST and REFUSED (R132, R134, R135) -/

theorem notify_waiting_waits (h : s.engine.state = .running .claiming ∨
      (s.engine.state = .running .active ∧ s.engine.current.request.isZero = false)) :
    notify .waiting s = setSub .waiting s := by
  rcases h with h | ⟨h, hzero⟩ <;> simp [notify, noticeWaiting, *]

theorem notify_waiting_stays (h : s.engine.state = .running .waiting ∨
      (s.engine.state = .running .active ∧ s.engine.current.request.isZero = true)) :
    notify .waiting s = s := by
  rcases h with h | ⟨h, hzero⟩ <;> simp [notify, noticeWaiting, *]

theorem notify_lost_of_running {b : Substate} (h : s.engine.state = .running b) :
    notify .lost s = setSub .regain s := by
  simp [notify, h]

theorem notify_lost_of_held (h : s.engine.state = .held) :
    notify .lost s = s.setEngine { s.engine with purge := .stopped } := by
  simp [notify, h]

/-- A fault finds the substate of RUNNING, or HELD, for its record (R172, R174). -/
theorem raiseFault_of_underWay {sub : FaultSub} (code : FaultCode)
    (h : (∃ b, s.engine.state = .running b ∧ sub = .running b) ∨ (s.engine.state = .held ∧ sub = .held)) :
    raiseFault code s = enterFaulted code sub s := by
  rcases h with ⟨b, h, rfl⟩ | ⟨h, rfl⟩ <;> simp [raiseFault, h]

theorem notify_refused_faults {sub : FaultSub}
    (h : (∃ b, s.engine.state = .running b ∧ sub = .running b) ∨ (s.engine.state = .held ∧ sub = .held)) :
    notify .refused s = enterFaulted .claimRefused sub s := by
  rw [← raiseFault_of_underWay .claimRefused h]
  rcases h with ⟨b, h, -⟩ | ⟨h, -⟩ <;> simp [notify, h]

/-- The record of a fault holds the hold-reason set exactly if it names HELD (R174). -/
theorem faultRecord_holds {sub : FaultSub}
    (h : (∃ b, s.engine.state = .running b ∧ sub = .running b) ∨ (s.engine.state = .held ∧ sub = .held)) :
    (if sub = .held then s.engine.holds else HoldSet.empty) =
      if s.engine.state = .held then s.engine.holds else HoldSet.empty := by
  rcases h with ⟨b, h, rfl⟩ | ⟨h, rfl⟩ <;> simp [h]

/-! ## HELD, REGAIN and the states without a cycle (R135, R142, R151) -/

theorem notify_regain_stays {n : Notice} (hn : n = .admitted ∨ n = .waiting ∨ n = .none)
    (h : s.engine.state = .running .regain) : notify n s = s := by
  rcases hn with rfl | rfl | rfl <;> simp [notify, noticeAdmitted, noticeWaiting, noticeNone, h]

theorem notify_of_held {n : Notice} (hn : n = .admitted ∨ n = .waiting ∨ n = .none) (h : s.engine.state = .held) :
    notify n s = noticeHeld s := by
  rcases hn with rfl | rfl | rfl <;> simp [notify, h]

theorem noticeHeld_endsPurge (hpurge : s.engine.purge.isRunning = true) (hvent : s.own.held Share.vent = 0) :
    noticeHeld s = (s.setEngine { s.engine with purge := .stopped }).setOut s.listReleased := by
  have hends : noticeHeld s = endPurge s := if_pos (by simp [hpurge, Holding.holdsVent, hvent])
  exact hends.trans (endPurge_eq s)

theorem noticeHeld_stays (h : s.engine.purge.isRunning = false ∨ 0 < s.own.held Share.vent) : noticeHeld s = s := by
  refine if_neg ?_
  rcases h with h | h <;> simp [Holding.holdsVent, h]

theorem notify_of_not_underWay (n : Notice) (h : s.engine.state.underWay = false) : notify n s = s := by
  unfold notify
  split
  case h_1 hs | h_2 hs => simp [hs, EngineState.underWay] at h
  all_goals rfl

end

/-! ## The statements -/

/-- Settles O59: what NONE does in each substate of RUNNING. -/
theorem answerNone : Obligations.AnswerNone := by
  unfold Obligations.AnswerNone
  refine fun s => ⟨fun hs => ?claiming, fun hs => ?reclaims, fun hs hzero => ?zero, fun hs => ?regain⟩
  case claiming => exact notify_none_stays (.inl hs)
  case reclaims =>
    obtain ⟨hengine, hclaims⟩ := reclaim_leaves (notify_none_reclaims hs)
    exact ⟨hengine, by rw [hengine]; rfl, hclaims⟩
  case zero => exact notify_none_stays (.inr (.inr (.inl ⟨hs, hzero⟩)))
  case regain => exact notify_none_stays (.inr (.inl hs))

/-- Settles O60: what each notification does in each substate of RUNNING and in HELD. -/
theorem answersFromTheBank : Obligations.AnswersFromTheBank := by
  unfold Obligations.AnswersFromTheBank
  refine fun s => ⟨notify_admitted_activates, fun hs hc => ?covered, fun hs hc => ?uncovered,
    fun hs hc => reclaim_leaves (notify_admitted_reclaims hs hc), notify_waiting_waits, notify_waiting_stays,
    fun n => notify_regain_stays, fun b => notify_lost_of_running, notify_lost_of_held, fun sub hsub => ?refused,
    fun n hn hs => ⟨fun hpurge hvent => ?endsPurge, fun h => ?held⟩, notify_of_not_underWay⟩
  case covered => exact notify_admitted_stays (.inr (.inl ⟨hs, hc⟩))
  case uncovered => exact notify_admitted_stays (.inl ⟨hs, hc⟩)
  case refused =>
    rw [notify_refused_faults hsub, enterFaulted_eq, ← faultRecord_holds hsub]
    exact ⟨rfl, rfl, rfl, rfl⟩
  case endsPurge => exact (notify_of_held hn hs).trans (noticeHeld_endsPurge hpurge hvent)
  case held => exact (notify_of_held hn hs).trans (noticeHeld_stays h)

end Sys2Proof.Machine
end

section
/-! SUPPORT. HOLD, RESUME, ABORT CYCLE and CLEAR FAULT at their take (R140, R147 to R149, R179): the decision by the engine's
state, what an accepted one leaves, and the statements about them. -/

namespace Sys2Proof.Machine

/-! ## HOLD (R140) -/

theorem exec_hold (s : State) : exec .hold s = .next (refresh (hostCommand 0x12 hold s)) := rfl

section
variable {s : State}

theorem hold_of_running {b : Substate} (h : s.engine.state = .running b) :
    hold s = (enterHeld .host (some b) none s, .ok) := by
  simp [hold, h]

theorem hold_of_held (h : s.engine.state = .held) : hold s = (addReason .host s, .ok) := by
  simp [hold, h]

theorem hold_of_faulted (h : s.engine.state = .faulted) : hold s = (s, .faultPending) := by
  simp [hold, h]

theorem hold_of_idle (h : s.engine.state = .idle ∨ s.engine.state = .loaded ∨ s.engine.state = .complete) :
    hold s = (s, .wrongState) := by
  rcases h with h | h | h <;> simp [hold, h]

/-- HOLD in RUNNING enters HELD with HOST (R140, R141). -/
theorem hold_enters {b : Substate} (h : s.engine.state = .running b) : hold s =
    (s.changed { s.engine with state := .held, holds := ⟨true, false, false⟩, purge := .stopped } s.fault s.meas
      s.listReleased (s.port.ring.after .holdOn s.engine.index 1 1 b.code 0), .ok) := by
  rw [hold_of_running h, enterHeld_none_eq]
  rfl

/-- HOLD in HELD without HOST adds HOST (R140). -/
theorem hold_adds (h : s.engine.state = .held) (hhost : s.engine.holds.host = false) : hold s =
    (s.changed { s.engine with holds := { s.engine.holds with host := true } } s.fault s.meas s.out
      (s.port.ring.after .holdOn s.engine.index 1 { s.engine.holds with host := true }.code 0 0), .ok) := by
  rw [hold_of_held h, addReason_eq (r := .host) hhost]
  rfl

theorem hold_of_host (h : s.engine.state = .held) (hhost : s.engine.holds.host = true) : hold s = (s, .ok) := by
  rw [hold_of_held h, addReason_of_held (r := .host) hhost]

end

/-- Settles O19: the decision by the engine's state. -/
theorem holdAnswers : Obligations.HoldAnswers := by
  unfold Obligations.HoldAnswers
  refine fun s hfree => ⟨fun b hs => ?enters, fun hs hhost => ?adds, fun hs hhost => ?again, fun hs => ?faulted,
    fun hs => ?idle⟩
  case enters =>
    obtain ⟨t, hexec, hanswers, hcounters, h⟩ :=
      exec_of_changed (exec_hold s) hfree (hold_enters (s := s.atTake 0x12) hs)
    obtain ⟨hheaters, hsteam, hvent, hfan, hvalve⟩ := h.off rfl
    exact ⟨t, hexec, hanswers, h.engine, h.out, h.ring, hcounters, h.line, h.table, h.control, h.meas, h.fault, h.base,
      h.follows, hheaters, hsteam, hvent, hfan, hvalve⟩
  case adds =>
    obtain ⟨t, hexec, hanswers, hcounters, h⟩ :=
      exec_of_changed (exec_hold s) hfree (hold_adds (s := s.atTake 0x12) hs hhost)
    exact ⟨t, hexec, hanswers, h.engine, h.ring, hcounters, h.meas, h.fault, ⟨h.line, h.out, h.table, h.control⟩,
      h.base, h.follows⟩
  case again => exact answersOnly_of_unchanged (exec_hold s) hfree (hold_of_host (s := s.atTake 0x12) hs hhost)
  case faulted => exact answersOnly_of_unchanged (exec_hold s) hfree (hold_of_faulted (s := s.atTake 0x12) hs)
  case idle => exact answersOnly_of_unchanged (exec_hold s) hfree (hold_of_idle (s := s.atTake 0x12) hs)

/-! ## RESUME (R147, R148) -/

theorem exec_resume (s : State) : exec .resume s = .next (refresh (hostCommand 0x13 resume s)) := rfl

section
variable {s : State}

/-- A reason taken while another remains (R148). -/
theorem removeReason_of_more {r : HoldReason} (h : (s.engine.holds.put r false).isEmpty = false) :
    removeReason r s = takeReason r s := if_neg (Bool.eq_false_iff.mp h)

/-- The last reason taken: HELD is left, and the phase re-entered (R147). -/
theorem removeReason_of_last {r : HoldReason} (h : (s.engine.holds.put r false).isEmpty = true) :
    removeReason r s = leaveHeld (takeReason r s) := if_pos h

theorem resume_of_host (hs : s.engine.state = .held) (hhost : s.engine.holds.host = true) :
    resume s = (removeReason .host s, .ok) := by
  simp [resume, hs, hhost]

theorem resume_of_no_host (hs : s.engine.state = .held) (hhost : s.engine.holds.host = false) :
    resume s = (s, .wrongState) := by
  simp [resume, hs, hhost]

theorem resume_of_faulted (hs : s.engine.state = .faulted) : resume s = (s, .faultPending) := by
  simp [resume, hs]

theorem resume_of_other (hheld : s.engine.state ≠ .held) (hfaulted : s.engine.state ≠ .faulted) :
    resume s = (s, .wrongState) := by
  unfold resume
  split
  case h_1 h => exact absurd h hheld
  case h_2 h => exact absurd h hfaulted
  all_goals rfl

/-- RESUME that leaves DOOR or TANK in the set takes HOST out of it (R148). -/
theorem resume_takes (hs : s.engine.state = .held) (hhost : s.engine.holds.host = true)
    (hmore : s.engine.holds.door = true ∨ s.engine.holds.tank = true) : resume s =
    (s.changed { s.engine with holds := { s.engine.holds with host := false } } s.fault s.meas s.out
      (s.port.ring.after .holdOff s.engine.index 1 { s.engine.holds with host := false }.code 0 0), .ok) := by
  have hset : (s.engine.holds.put .host false).isEmpty = false := by
    rcases hmore with h | h <;> simp [HoldSet.isEmpty, HoldSet.put, h]
  rw [resume_of_host hs hhost, removeReason_of_more hset, takeReason_eq]
  rfl

/-- The state in which an engine held by HOST alone re-enters its phase after a RESUME (R147, R148). -/
def State.resumed (s : State) : State :=
  s.changed { s.engine with holds := HoldSet.empty, purge := .stopped } s.fault s.meas s.out
    (s.port.ring.after .holdOff s.engine.index 1 0 0 0)

theorem resume_of_host_alone (hs : s.engine.state = .held) (hholds : s.engine.holds = ⟨true, false, false⟩) :
    resume s = (entryTests none s.resumed, .ok) := by
  rw [resume_of_host hs (by rw [hholds]), removeReason_of_last (by rw [hholds]; rfl), takeReason_eq, hholds]
  rfl

/-- RESUME of a MEMBER that holds nothing claims the phase again, its timers kept (R130, R147). -/
theorem resume_claims (hs : s.engine.state = .held) (hholds : s.engine.holds = ⟨true, false, false⟩)
    (hclear : s.EntryClear) (hm : s.control.station = .member) (hown : s.own = .none)
    (hzero : s.engine.current.request.isZero = false) : resume s =
    (s.changed { s.engine with state := .running .claiming, holds := HoldSet.empty, purge := .stopped } s.fault s.meas
      (s.out.post .intent (.claim s.engine.current.request))
      (s.port.ring.after .holdOff s.engine.index 1 0 0 0), .ok) := by
  have hclear' : s.resumed.EntryClear := ⟨hclear.door, hclear.tank, hclear.water⟩
  rw [resume_of_host_alone hs hholds, entryTests_claims none hclear' hm hown hzero]
  rfl

end

/-- Settles O20: the decision by the engine's state and its hold-reason set. -/
theorem resumeAnswers : Obligations.ResumeAnswers := by
  unfold Obligations.ResumeAnswers
  refine fun s hfree => ⟨fun hs hhost hmore => ?takes, fun hs hholds hdoor htank hwater hm hown hzero => ?claims,
    fun hs hhost => ?noHost, fun hs => ?faulted, fun hheld hfaulted => ?other⟩
  case takes =>
    obtain ⟨t, hexec, hanswers, hcounters, h⟩ :=
      exec_of_changed (exec_resume s) hfree (resume_takes (s := s.atTake 0x13) hs hhost hmore)
    exact ⟨t, hexec, hanswers, h.engine, h.ring, hcounters, h.meas, h.fault, ⟨h.line, h.out, h.table, h.control⟩,
      h.base, h.follows⟩
  case claims =>
    obtain ⟨t, hexec, hanswers, hcounters, h⟩ := exec_of_changed (exec_resume s) hfree
      (resume_claims (s := s.atTake 0x13) hs hholds ⟨hdoor, htank, hwater⟩ hm hown hzero)
    exact ⟨t, hexec, hanswers, h.engine, h.out, h.ring, hcounters, h.meas, h.fault, h.line, h.table, h.control, h.base,
      h.follows⟩
  case noHost =>
    exact answersOnly_of_unchanged (exec_resume s) hfree (resume_of_no_host (s := s.atTake 0x13) hs hhost)
  case faulted => exact answersOnly_of_unchanged (exec_resume s) hfree (resume_of_faulted (s := s.atTake 0x13) hs)
  case other =>
    exact answersOnly_of_unchanged (exec_resume s) hfree (resume_of_other (s := s.atTake 0x13) hheld hfaulted)

/-! ## ABORT CYCLE (R149) -/

theorem exec_abortCycle (s : State) : exec .abortCycle s = .next (refresh (hostCommand 0x14 abortCycle s)) := rfl

section
variable {s : State}

theorem abortCycle_of_underWay (h : s.engine.state.underWay = true) : abortCycle s =
    (s.changed s.engine.aborted s.fault s.meas s.listReleased s.port.ring, .ok) := by
  have haborts : abortCycle s = (giveUpShare (s.setEngine s.engine.aborted), .ok) := by
    cases hs : s.engine.state <;> simp_all [abortCycle, EngineState.underWay]
  rw [haborts, giveUpShare_eq]
  rfl

theorem abortCycle_of_faulted (h : s.engine.state = .faulted) : abortCycle s = (s, .faultPending) := by
  simp [abortCycle, h]

theorem abortCycle_of_idle (h : s.engine.state = .idle ∨ s.engine.state = .loaded ∨ s.engine.state = .complete) :
    abortCycle s = (s, .wrongState) := by
  rcases h with h | h | h <;> simp [abortCycle, h]

end

/-! ## CLEAR FAULT (R179) -/

theorem exec_clearFault (s : State) : exec .clearFault s = .next (refresh (hostCommand 0x15 clearFault s)) := rfl

section
variable {s : State}

theorem clearFault_of_not_faulted (h : s.engine.state ≠ .faulted) : clearFault s = (s, .wrongState) := by
  unfold clearFault
  split
  case h_1 hs => exact absurd hs h
  all_goals rfl

/-- In FAULTED the code that blocks decides (R179). -/
theorem clearFault_of_faulted {r : FaultRecord} (hs : s.engine.state = .faulted) (hr : s.fault = some r) :
    (∀ c, blockingCode s.engine s.meas.sample r = some c → clearFault s = (s, .conditionPresent c)) ∧
    (blockingCode s.engine s.meas.sample r = none →
      clearFault s = (s.changed s.engine.cleared none s.meas s.out s.port.ring, .ok)) := by
  refine ⟨fun c hc => ?_, fun hc => ?_⟩
  · simp only [clearFault, hs, hr, Option.bind_some, hc]
  · simp only [clearFault, hs, hr, Option.bind_some, hc]
    rfl

end

/-- The first code is tested first, then the last later code (R179). -/
theorem blockingCode_cases (e : Engine) (m : Sample) (r : FaultRecord) :
    (clearCondition e m r.code = true → blockingCode e m r = some r.code) ∧
    (∀ c, clearCondition e m r.code = false → r.last = some c → clearCondition e m c = true →
      blockingCode e m r = some c) ∧
    (clearCondition e m r.code = false → (∀ c, r.last = some c → clearCondition e m c = false) →
      blockingCode e m r = none) := by
  refine ⟨fun h => if_pos h, fun c h hlast hc => ?_, fun h hlast => ?_⟩
  · simp [blockingCode, h, hlast, hc]
  · cases hc : r.last with
    | none => simp [blockingCode, h, hc]
    | some c => simp [blockingCode, h, hc, hlast c hc]

/-- The clear conditions in the words of R179. -/
theorem clearCondition_iff (e : Engine) (m : Sample) :
    (clearCondition e m .overTemp = true ↔ ∀ x, m.air = some x → 2 * (e.maxTemp : Int) < x) ∧
    (clearCondition e m .sensor = true ↔ m.air = none ∨ m.hum = none) ∧
    (clearCondition e m .noWater = true ↔ m.reservoir = .empty) ∧
    clearCondition e m .phaseLimit = false ∧ clearCondition e m .claimRefused = false := by
  refine ⟨?_, ?_, ?_, rfl, rfl⟩
  · cases h : m.air <;> simp [clearCondition, h]
  · simp [clearCondition]
  · simp [clearCondition]

section
variable {s : State}

/-- A code that blocks is named in the answer, and nothing is cleared (R179). -/
theorem answersOnly_of_blocked {r : FaultRecord} {c : FaultCode} (hfree : codeRefused 0x15 s = false)
    (hs : s.engine.state = .faulted) (hr : s.fault = some r) (hc : blockingCode s.engine s.meas.sample r = some c) :
    AnswersOnly .clearFault 0x15 (.conditionPresent c) s := by
  obtain ⟨blocked, -⟩ := clearFault_of_faulted (s := s.atTake 0x15) hs hr
  exact answersOnly_of_unchanged (exec_clearFault s) hfree (blocked c hc)

end

/-- Settles O21: ABORT CYCLE by the engine's state, CLEAR FAULT by the code that blocks. -/
theorem abortAnswers : Obligations.AbortAnswers := by
  unfold Obligations.AbortAnswers
  refine ⟨fun s hfree => ⟨fun hs => ?aborts, fun hs => ?faulted, fun hs => ?idle⟩,
    fun s hfree => ⟨fun hs => ?notFaulted, fun r hs hr hfirst => ?first, fun r c hs hr hfirst hlast hlater => ?later,
      fun r hs hr hfirst hlast => ?clears, clearCondition_iff⟩⟩
  case aborts =>
    obtain ⟨t, hexec, hanswers, hcounters, h⟩ :=
      exec_of_changed (exec_abortCycle s) hfree (abortCycle_of_underWay (s := s.atTake 0x14) hs)
    exact ⟨t, hexec, hanswers, ⟨h.ring, hcounters⟩, h.engine, h.out, h.line, h.table, h.control, h.meas, h.fault,
      h.base, h.follows⟩
  case faulted =>
    exact answersOnly_of_unchanged (exec_abortCycle s) hfree (abortCycle_of_faulted (s := s.atTake 0x14) hs)
  case idle => exact answersOnly_of_unchanged (exec_abortCycle s) hfree (abortCycle_of_idle (s := s.atTake 0x14) hs)
  case notFaulted =>
    exact answersOnly_of_unchanged (exec_clearFault s) hfree (clearFault_of_not_faulted (s := s.atTake 0x15) hs)
  all_goals
    obtain ⟨first, later, unblocked⟩ := blockingCode_cases s.engine s.meas.sample r
    obtain ⟨-, clears⟩ := clearFault_of_faulted (s := s.atTake 0x15) hs hr
  case first => exact answersOnly_of_blocked hfree hs hr (first hfirst)
  case later => exact answersOnly_of_blocked hfree hs hr (later c hfirst hlast hlater)
  case clears =>
    obtain ⟨t, hexec, hanswers, hcounters, h⟩ :=
      exec_of_changed (exec_clearFault s) hfree (clears (unblocked hfirst hlast))
    exact ⟨t, hexec, hanswers, ⟨h.ring, hcounters⟩, h.fault, h.engine, h.meas, h.base,
      ⟨h.line, h.out, h.table, h.control⟩, h.follows⟩

end Sys2Proof.Machine
end

section
/-! SUPPORT. START CYCLE (R127, R128): its answers, and the phase 0 that an accepted one enters. -/

namespace Sys2Proof.Machine

theorem exec_startCycle (s : State) : exec .startCycle s = .next (refresh (hostCommand 0x11 startCycle s)) := rfl

/-- The engine is in a state from which a cycle starts (R127). -/
def EngineState.Starts (e : EngineState) : Prop := e = .loaded ∨ e = .complete

/-! ## The decision (R127) -/

section
variable {s : State}

theorem startCycle_of_faulted (h : s.engine.state = .faulted) : startCycle s = (s, .faultPending) := by
  simp [startCycle, h]

theorem startCycle_of_underWay (h : s.engine.state.underWay = true) : startCycle s = (s, .busy) := by
  cases hs : s.engine.state <;> simp_all [startCycle, EngineState.underWay]

theorem startCycle_of_idle (h : s.engine.state = .idle) : startCycle s = (s, .noCycle) := by
  simp [startCycle, h]

theorem startCycle_of_stale (h : s.engine.state.Starts) (hstale : s.engine.stale = true) :
    startCycle s = (s, .noCycle) := by
  rcases h with h | h <;> simp [startCycle, h, hstale]

theorem startCycle_of_not_member (h : s.engine.state.Starts) (hstale : s.engine.stale = false)
    (hm : s.control.station ≠ .member) : startCycle s = (s, .notMember) := by
  rcases h with h | h <;> simp [startCycle, h, hstale, State.isMember, hm]

/-- The state in which an accepted START CYCLE tests the entry into phase 0 (R128, R129, R156). -/
def State.cycleStarted (s : State) : State := (s.setMeas { s.meas with lowReported := false }).phaseStarted 0

theorem startCycle_of_member (h : s.engine.state.Starts) (hstale : s.engine.stale = false)
    (hm : s.control.station = .member) : startCycle s = (entryTests none s.cycleStarted, .ok) := by
  rcases h with h | h <;> simp [startCycle, h, hstale, State.isMember, hm, enterFresh_eq, State.cycleStarted]

/-! ## Accepted (R128) -/

/-- START CYCLE answers OK whatever the tests of phase 0 find (R127). -/
theorem exec_startCycle_of_member (hfree : codeRefused 0x11 s = false) (h : s.engine.state.Starts)
    (hstale : s.engine.stale = false) (hm : s.control.station = .member) :
    ∃ t, exec .startCycle s = .next t ∧ Answers 0x11 .ok s t := by
  have houtside := entryTests_outside none (s.atTake 0x11).cycleStarted
  rw [exec_startCycle, hostCommand_of_free hfree, startCycle_of_member (s := s.atTake 0x11) h hstale hm]
  exact ⟨_, rfl, (outside_code houtside :), rfl, (outside_result houtside :), (outside_txn houtside :),
    (outside_sdo houtside :), (outside_param1 houtside :), (outside_param2 houtside :), (outside_staging houtside :),
    (outside_view houtside :)⟩

/-- The ring with the PHASE_START of phase 0 (R128). -/
def State.ringStarted (s : State) : Ring :=
  let p := s.engine.phases.getD 0 Phase.blank
  s.port.ring.after .phaseStart 0 p.kind.code p.power p.vent p.kind.fillFlag

/-- With the door open the cycle starts in HELD (R129). -/
theorem startCycle_of_ajar (h : s.engine.state.Starts) (hstale : s.engine.stale = false)
    (hm : s.control.station = .member) (hdoor : s.meas.doorOpen = true) : startCycle s =
    (s.changed { s.engine with
        state := .held, holds := ⟨false, true, false⟩, index := 0, phaseTimer := 0, limitTimer := 0, purge := .stopped }
      s.fault { s.meas with lowReported := false } s.listReleased (s.ringStarted.after .holdOn 0 2 2 0 0), .ok) := by
  rw [startCycle_of_member h hstale hm, entryTests_of_ajar (s := s.cycleStarted) none hdoor, enterHeld_none_eq]
  rfl

/-- With nothing in the way and nothing held the cycle starts by claiming phase 0 (R129, R130). -/
theorem startCycle_claims (h : s.engine.state.Starts) (hstale : s.engine.stale = false)
    (hm : s.control.station = .member) (hclear : s.cycleStarted.EntryClear) (hown : s.own = .none)
    (hzero : s.cycleStarted.engine.current.request.isZero = false) : startCycle s =
    (s.changed { s.engine with state := .running .claiming, index := 0, phaseTimer := 0, limitTimer := 0 }
      s.fault { s.meas with lowReported := false }
      (s.out.post .intent (.claim (s.engine.phases.getD 0 Phase.blank).request)) s.ringStarted, .ok) := by
  rw [startCycle_of_member h hstale hm, entryTests_claims none hclear hm hown hzero]
  rfl

end

/-! ## The statements -/

/-- Settles O16: the decision by the engine's state, the stale mark and the station's state. -/
theorem startCycleAnswers : Obligations.StartCycleAnswers := by
  unfold Obligations.StartCycleAnswers
  refine fun s hfree => ⟨fun h => ?faulted, fun h => ?busy, fun h => ?idle, fun h hstale => ?stale,
    fun h hstale hm => ?notMember, exec_startCycle_of_member hfree⟩
  all_goals refine answersOnly_of_unchanged (exec_startCycle s) hfree ?_
  case faulted => exact startCycle_of_faulted (s := s.atTake 0x11) h
  case busy => exact startCycle_of_underWay (s := s.atTake 0x11) h
  case idle => exact startCycle_of_idle (s := s.atTake 0x11) h
  case stale => exact startCycle_of_stale (s := s.atTake 0x11) h hstale
  case notMember => exact startCycle_of_not_member (s := s.atTake 0x11) h hstale hm

/-- Settles O17: the entry into phase 0 with the door open, and with nothing in the way. -/
theorem startCycleEntersPhaseZero : Obligations.StartCycleEntersPhaseZero := by
  unfold Obligations.StartCycleEntersPhaseZero
  intro s hfree hs hstale hm p ring
  refine ⟨fun hdoor => ?ajar, fun hdoor htank hwater hzero hown => ?claims⟩
  case ajar =>
    obtain ⟨t, hexec, hanswers, hcounters, h⟩ :=
      exec_of_changed (exec_startCycle s) hfree (startCycle_of_ajar (s := s.atTake 0x11) hs hstale hm hdoor)
    exact ⟨t, hexec, hanswers, h.engine, h.out, h.ring, h.meas, h.line, h.table, h.control, h.fault, hcounters, h.base,
      h.follows⟩
  case claims =>
    obtain ⟨t, hexec, hanswers, hcounters, h⟩ := exec_of_changed (exec_startCycle s) hfree
      (startCycle_claims (s := s.atTake 0x11) hs hstale hm ⟨hdoor, htank, hwater⟩ hown hzero)
    exact ⟨t, hexec, hanswers, h.engine, h.out, h.ring, h.meas, h.line, h.table, h.control, h.fault, hcounters, h.base,
      h.follows⟩

end Sys2Proof.Machine
end

section
/-! SUPPORT. The statement about the entry into a phase and the end of one (R129, R130, R135, R138, R139): the outcome of the
tests, and the rows that make an entry. -/

namespace Sys2Proof.Machine

/-! ## The words of the statement -/

theorem Phase.request_isZero_iff (p : Phase) :
    p.request.isZero = true ↔ p.power = 0 ∧ p.vent = 0 ∧ p.kind ≠ .fill := by
  simp [Share.isZero, Phase.request, PhaseKind.fillFlag_eq, and_assoc]

theorem Phase.request_covered_iff (p : Phase) (a : Share) : a.covers p.request = true ↔
    p.power ≤ a.power ∧ p.vent ≤ a.vent ∧ (p.kind = .fill → 1 ≤ a.fill) := by
  by_cases h : p.kind = .fill <;> simp [Share.covers, Phase.request, PhaseKind.fillFlag_eq, and_assoc, h]

theorem Phase.request_same_iff (p : Phase) (a : Share) : a.sameAmounts p.request = true ↔
    a.power = p.power ∧ a.vent = p.vent ∧ a.fill = (if p.kind = .fill then 1 else 0) := by
  simp [Share.sameAmounts, Phase.request, PhaseKind.fillFlag_eq, and_assoc]

theorem Phase.request_eq (p : Phase) :
    p.request = ⟨p.power, p.vent, if p.kind = .fill then 1 else 0, p.kind⟩ := by
  rw [← PhaseKind.fillFlag_eq]
  rfl

/-- No test stops an entry, in the words of R129. -/
theorem State.entryClear_of {s : State} (hajar : ¬ s.meas.doorOpen = true)
    (htank : ¬ ((s.engine.current.kind = .steam ∨ s.engine.current.kind = .dry) ∧ s.meas.sample.tankFull = true))
    (hdry : ¬ (s.engine.current.kind = .steam ∧ s.meas.sample.reservoir = .empty)) : s.EntryClear := by
  refine ⟨Bool.eq_false_iff.mpr hajar, fun hkind => Bool.eq_false_iff.mpr fun hfull => ?_, fun hkind hempty => ?_⟩
  · exact htank ⟨(PhaseKind.makesCondensate_iff _).mp hkind, hfull⟩
  · exact hdry ⟨hkind, hempty⟩

/-! ## The outcome of the tests (R129, R130) -/

section
variable {s : State} (left : Option Substate)

theorem entryTests_of_apart (h : s.EntryClear) (hm : s.control.station ≠ .member) :
    entryTests left s = s.setEngine { s.engine with state := .running .regain } := by
  rw [entryTests_of_clear left h, if_neg hm]
  rfl

theorem entryTests_of_zero (h : s.EntryClear) (hm : s.control.station = .member)
    (hzero : s.engine.current.request.isZero = true) :
    entryTests left s = (s.setOut s.listReleased).setEngine { s.engine with state := .running .active } := by
  rw [entryTests_of_clear left h, if_pos hm, claimPhase_of_zero hzero]

theorem entryTests_of_covered {a : Share} (h : s.EntryClear) (hm : s.control.station = .member)
    (hzero : s.engine.current.request.isZero = false) (hown : s.own = .admitted a)
    (hcovers : a.covers s.engine.current.request = true) :
    entryTests left s = if a.sameAmounts s.engine.current.request && !s.intentBusy then setSub .active s
      else s.claimed .active := by
  rw [entryTests_of_clear left h, if_pos hm, claimPhase_of_covered hm hzero hown hcovers]

theorem entryTests_of_uncovered (h : s.EntryClear) (hm : s.control.station = .member)
    (hzero : s.engine.current.request.isZero = false)
    (hown : s.own.coversRequest s.engine.current.request = false) : entryTests left s = s.claimed .claiming := by
  rw [entryTests_of_clear left h, if_pos hm, claimPhase_of_uncovered hm hzero hown]

end

/-! ## The rows that enter a phase (R135, R137, R138) -/

theorem exec_phaseDurationReached (s : State) :
    exec .phaseDurationReached s = .next (refresh (durationReached s)) := rfl
theorem exec_phaseLimitReached (s : State) : exec .phaseLimitReached s = .next (refresh (limitReached s)) := rfl

section
variable {s : State}

/-- The state in which an ACTIVE TIME phase reaches its duration (R137). -/
def State.atDuration (s : State) : State :=
  s.setEngine { s.engine with phaseTimer := s.engine.current.duration * 40000 }

theorem durationReached_of_active (hs : s.engine.state = .running .active) (hstop : s.engine.current.stop = .time) :
    durationReached s = endPhase 1 s.atDuration := if_pos ⟨hs, hstop⟩

/-- The state in which the limit of an ACTIVE phase acts (R137). -/
def State.atLimit (s : State) : State :=
  s.setEngine { s.engine with
    phaseTimer := s.engine.current.limit * 40000, limitTimer := s.engine.current.limit * 40000 }

theorem limitReached_of_active (hs : s.engine.state = .running .active) (hstop : s.engine.current.stop ≠ .time) :
    limitReached s = if s.engine.current.onLimitFault then raiseFault .phaseLimit s.atLimit else endPhase 2 s.atLimit :=
  if_pos ⟨hs, hstop⟩

/-- A REGAIN engine of a station that becomes MEMBER with nothing held claims its phase (R93, R130, R135). -/
theorem exec_idle_regains (hline : s.line.state = .waitIdle ∨ s.line.state = .idle)
    (hopen : s.table.windowOpen = true) (htimer : s.table.windowTimer = .runOut)
    (hs : s.control.station = .gathering) (ha : s.control.answered = true) (hrenewal : s.table.renewal ≠ .runOut)
    (hlease : s.table.selfLease ≠ .runOut) (hregain : s.engine.state = .running .regain) (hown : s.own = .none)
    (hclear : s.EntryClear) (hzero : s.engine.current.request.isZero = false) :
    ∃ t, exec (.idle true) s = .next t ∧ t.control.station = .member ∧
      t.engine = { s.engine with state := .running .claiming } ∧
      t.out = s.out.post .intent (.claim s.engine.current.request) := by
  have hjoined := State.joined_eq (s := s.closing) hs
  have hengine : s.closing.joined.engine = s.engine := by rw [hjoined]; rfl
  have hmeas : s.closing.joined.meas = s.meas := by rw [hjoined]; rfl
  have hmember : s.closing.joined.control.station = .member := by rw [hjoined]
  have hout : s.closing.joined.out = s.out := by rw [hjoined]; exact if_neg hrenewal
  have hnone : s.closing.joined.own = .none := by
    have htable : s.closing.joined.own = s.table.closed.dropGathered.holding s.ownId := by rw [hjoined]; rfl
    have hclosed : s.table.closed.holding s.ownId = .none := hown
    rw [htable, Table.holding_dropGathered, hclosed]
    rfl
  have hentry : s.closing.joined.EntryClear :=
    ⟨by rw [hmeas]; exact hclear.door, by rw [hmeas, hengine]; exact hclear.tank,
      by rw [hmeas, hengine]; exact hclear.water⟩
  obtain ⟨-, hregains, -⟩ := enterMember_ends (s := s.closing) hs
  rw [ClosesWindow.exec_idle ⟨hline, hopen, htimer⟩, windowClosed_of_answered (s := s.closing) hs ha,
    hregains hlease hregain, entryTests_claims _ hentry hmember hnone (by rw [hengine]; exact hzero)]
  refine ⟨_, rfl, ?_, ?_, ?_⟩
  all_goals simp [restOfIdle, hearStart, State.claimed, hmember, hengine, hout]

end

/-- Settles O18: the outcome of the tests in their order, the entry and the end of a phase, and the rows that make them. -/
theorem phaseEntries : Obligations.PhaseEntries := by
  unfold Obligations.PhaseEntries
  refine ⟨?tests, fun index left s => ?fresh, fun outcome s => ?ends, fun s => ⟨fun hfree hs hstale hm => ?start,
    fun hs hstop => ?duration, fun hs hstop hproceed => ?limit, fun hfree hs hholds => ?resume,
    fun hline hopen htimer hs ha hrenewal hlease _ hregain hown hdoor htank hwater =>
      exec_idle_regains hline hopen htimer hs ha hrenewal hlease hregain hown ⟨hdoor, htank, hwater⟩⟩⟩
  case tests =>
    intro left s p ajar tank dry clear zero covered same code claimed t ht
    subst ht
    have hcode : leftCode left = code := by cases left <;> rfl
    have hclaimed : ∀ b, s.claimed b = claimed b := fun b => by rw [State.claimed, Phase.request_eq]
    have hclear : clear → s.EntryClear := fun ⟨hajar, htank, hdry⟩ => State.entryClear_of hajar htank hdry
    have hneeds : ¬ zero → s.engine.current.request.isZero = false := fun h =>
      Bool.eq_false_iff.mpr fun hz => h ((Phase.request_isZero_iff p).mp hz)
    refine ⟨fun hajar => ?ajar, fun hajar htank => ?tank, fun hajar htank hdry => ?dry,
      fun hc hm => entryTests_of_apart left (hclear hc) hm,
      fun hc hm hzero => entryTests_of_zero left (hclear hc) hm ((Phase.request_isZero_iff p).mpr hzero),
      fun a hc hm hneed hown hcovered => ?covered, fun hc hm hneed hnone => ?uncovered⟩
    case ajar =>
      rw [entryTests_of_ajar left hajar, enterHeld_none_eq, ← hcode]
      exact ⟨rfl, rfl, rfl⟩
    case tank =>
      obtain ⟨hkind, hfull⟩ := htank
      rw [entryTests_of_tank left (Bool.eq_false_iff.mpr hajar) ((PhaseKind.makesCondensate_iff _).mpr hkind) hfull,
        enterHeld_none_eq, ← hcode]
      exact ⟨rfl, rfl, rfl⟩
    case dry =>
      obtain ⟨hkind, hempty⟩ := hdry
      have hroom : s.meas.sample.tankFull = false := Bool.eq_false_iff.mpr fun hfull => htank ⟨.inl hkind, hfull⟩
      have hsteam : s.engine.current.kind = .steam := hkind
      rw [entryTests_of_dry left (Bool.eq_false_iff.mpr hajar) (fun _ => hroom) hkind hempty, enterFaulted_eq,
        State.faultRecord, hsteam]
      exact ⟨rfl, rfl, rfl, rfl⟩
    case covered =>
      have hsame : (a.sameAmounts s.engine.current.request && !s.intentBusy) = true ↔
          same a ∧ s.intentBusy = false := by
        rw [Bool.and_eq_true, Phase.request_same_iff, Bool.not_eq_true']
      rw [entryTests_of_covered left (hclear hc) hm (hneeds hneed) hown ((Phase.request_covered_iff p a).mpr hcovered)]
      exact ⟨fun h => if_pos (hsame.mpr h), fun h => (if_neg (fun h' => h (hsame.mp h'))).trans (hclaimed .active)⟩
    case uncovered =>
      have huncovered : s.own.coversRequest s.engine.current.request = false := by
        cases hown : s.own with
        | none | waiting req g => rfl
        | admitted a => exact Bool.eq_false_iff.mpr fun h => hnone a hown ((Phase.request_covered_iff p a).mp h)
      rw [entryTests_of_uncovered left (hclear hc) hm (hneeds hneed) huncovered]
      exact hclaimed .claiming
  case fresh =>
    rw [enterFresh_eq, State.phaseStarted, PhaseKind.fillFlag_eq]
  case ends =>
    refine ⟨endPhase_of_next outcome, fun hlast => ?_⟩
    rw [endPhase_of_last outcome hlast, completeCycle_eq]
    rfl
  case start =>
    rw [exec_startCycle, hostCommand_of_free hfree, startCycle_of_member (s := s.atTake 0x11) hs hstale hm,
      endTransaction_storeCode_eq]
    rfl
  case duration =>
    rw [exec_phaseDurationReached, durationReached_of_active hs hstop]
    rfl
  case limit =>
    rw [exec_phaseLimitReached, limitReached_of_active hs hstop, hproceed]
    rfl
  case resume =>
    rw [exec_resume, hostCommand_of_free hfree, resume_of_host_alone (s := s.atTake 0x13) hs hholds,
      endTransaction_storeCode_eq]
    rfl

end Sys2Proof.Machine
end

section
/-! SUPPORT. The statement about the end of a purge, of the last phase and of a phase whose limit faults (R137 to R139,
R144, R150). -/

namespace Sys2Proof.Machine

theorem exec_purgeTimeout (s : State) : exec .purgeTimeout s = .next (refresh (purgeRanOut s)) := rfl

/-- A timer set to whole seconds shows them (R136). -/
theorem wholeSeconds_mul (n : Nat) : wholeSeconds (n * 40000) = n := Nat.mul_div_cancel n (by decide)

/-- The ring with the end of the last phase and of the cycle (R138, R139). -/
def State.ringEnded (s : State) (outcome secs : Nat) : Ring :=
  (s.port.ring.after .phaseEnd s.engine.index s.engine.current.kind.code outcome (secs / 256) secs).after .cycleDone
    s.engine.index s.engine.phases.length s.engine.cls 0 0

section
variable {s : State}

/-- The end of the last phase completes the cycle (R138, R139). -/
theorem endPhase_completes (outcome : Nat) (h : s.engine.phases.length ≤ s.engine.index + 1) : endPhase outcome s =
    s.changed { s.engine with state := .complete } s.fault s.meas s.listReleased
      (s.ringEnded outcome (wholeSeconds s.engine.phaseTimer)) := by
  rw [endPhase_of_last outcome h, completeCycle_eq]
  rfl

theorem exec_purgeTimeout_of_running (hp : s.engine.purge.isRunning = true) : exec .purgeTimeout s =
    .next (refresh (s.changed { s.engine with purge := .stopped } s.fault s.meas s.listReleased s.port.ring)) := by
  rw [exec_purgeTimeout, purgeRanOut, if_pos hp, endPurge_eq]

theorem exec_phaseDurationReached_of_last (hs : s.engine.state = .running .active)
    (hstop : s.engine.current.stop = .time) (hlast : s.engine.phases.length ≤ s.engine.index + 1) :
    exec .phaseDurationReached s = .next (refresh (s.changed
      { s.engine with state := .complete, phaseTimer := s.engine.current.duration * 40000 } s.fault s.meas
      s.listReleased (s.ringEnded 1 s.engine.current.duration))) := by
  have htimer : s.atDuration.engine.phaseTimer = s.engine.current.duration * 40000 := rfl
  rw [exec_phaseDurationReached, durationReached_of_active hs hstop, endPhase_completes (s := s.atDuration) 1 hlast,
    htimer, wholeSeconds_mul]
  rfl

theorem exec_phaseLimitReached_of_last (hs : s.engine.state = .running .active)
    (hstop : s.engine.current.stop ≠ .time) (hproceed : s.engine.current.onLimitFault = false)
    (hlast : s.engine.phases.length ≤ s.engine.index + 1) :
    exec .phaseLimitReached s = .next (refresh (s.changed
      { s.engine with
        state := .complete, phaseTimer := s.engine.current.limit * 40000, limitTimer := s.engine.current.limit * 40000 }
      s.fault s.meas s.listReleased (s.ringEnded 2 s.engine.current.limit))) := by
  have htimer : s.atLimit.engine.phaseTimer = s.engine.current.limit * 40000 := rfl
  rw [exec_phaseLimitReached, limitReached_of_active hs hstop, hproceed, if_neg Bool.false_ne_true,
    endPhase_completes (s := s.atLimit) 2 hlast, htimer, wholeSeconds_mul]
  rfl

/-- The limit of a phase that faults ends no phase (R137, R150, R175). -/
theorem exec_phaseLimitReached_faults (hs : s.engine.state = .running .active)
    (hstop : s.engine.current.stop ≠ .time) (hfaults : s.engine.current.onLimitFault = true) :
    exec .phaseLimitReached s = .next (refresh (s.changed
      { s.engine with
        state := .faulted, phaseTimer := s.engine.current.limit * 40000, limitTimer := s.engine.current.limit * 40000,
        purge := .stopped, holds := HoldSet.empty }
      (some (s.faultRecord .phaseLimit (.running .active))) s.meas s.listReleased
      (s.port.ring.after .fault s.engine.index 4 s.engine.current.kind.code 3 0))) := by
  rw [exec_phaseLimitReached, limitReached_of_active hs hstop, if_pos hfaults,
    raiseFault_of_underWay (s := s.atLimit) .phaseLimit (.inl ⟨.active, hs, rfl⟩), enterFaulted_eq]
  rfl

end

/-- Settles O58: each row leaves one changed state, whose load request is off. -/
theorem purgesAndPhasesEnd : Obligations.PurgesAndPhasesEnd := by
  unfold Obligations.PurgesAndPhasesEnd
  refine ⟨fun s hs hp => ?purge, fun s hs => ?phase⟩
  case purge =>
    have h := becomes_refresh (s := s) (e := { s.engine with purge := .stopped }) (f := s.fault) (m := s.meas)
      (o := s.listReleased) (r := s.port.ring)
    obtain ⟨hheaters, hsteam, hvent, hfan, hvalve⟩ := h.off (by simp [Engine.loadRequest, hs, Timer.isRunning])
    exact ⟨_, exec_purgeTimeout_of_running hp, h.engine, h.out, refresh_port _, h.line, h.table, h.control, h.meas, h.fault,
      h.base, hheaters, hsteam, hvent, hfan, hvalve⟩
  case phase =>
    intro p ended off kept
    have keeps : ∀ {e f o r}, e.loadRequest = .off →
        off (refresh (s.changed e f s.meas o r)) ∧ kept (refresh (s.changed e f s.meas o r)) := by
      intro e f o r hoff
      have h := becomes_refresh (s := s) (e := e) (f := f) (m := s.meas) (o := o) (r := r)
      obtain ⟨hheaters, hsteam, hvent, hfan, hvalve⟩ := h.off hoff
      exact ⟨⟨hheaters, hsteam, hvent, hfan, hvalve⟩, h.line, h.table, h.control, h.meas, by simp, by simp [KeepsPort],
        h.base⟩
    refine ⟨fun hstop hlast => ⟨_, exec_phaseDurationReached_of_last hs hstop hlast, ?duration⟩,
      fun hstop hproceed hlast => ⟨_, exec_phaseLimitReached_of_last hs hstop hproceed hlast, ?limit⟩,
      fun hstop hfaults => ⟨_, exec_phaseLimitReached_faults hs hstop hfaults, ?faults⟩⟩
    all_goals
      exact ⟨becomes_refresh.engine, becomes_refresh.out, becomes_refresh.ring, becomes_refresh.fault, keeps rfl⟩

end Sys2Proof.Machine
end

section
/-! SUPPORT. The Load Drive read out (R161 to R169): a heater step, the steam decision, regulation at a sample, the outputs
as they follow their inputs, and the statement about them. -/

namespace Sys2Proof.Machine

/-! ## One decision (R164, R166) -/

/-- A heater step by the reading's place in the band around the target (R164). -/
theorem heaterStep_cases (n allowance target : Nat) (x : Int) :
    heaterStep n allowance target none = 0 ∧
    (x < 2 * (target : Int) - 2 → heaterStep n allowance target (some x) = if n < allowance then n + 1 else n) ∧
    (2 * (target : Int) + 2 < x → heaterStep n allowance target (some x) = n - 1) ∧
    (2 * (target : Int) - 2 ≤ x → x ≤ 2 * (target : Int) + 2 → heaterStep n allowance target (some x) = n) := by
  refine ⟨rfl, fun hcold => if_pos hcold, fun hhot => ?hot, fun hlow hhigh => ?between⟩
  case hot =>
    have hnot : ¬ x < 2 * (target : Int) - 2 := by omega
    exact (if_neg hnot).trans (if_pos hhot)
  case between => exact (if_neg (Int.not_lt.mpr hlow)).trans (if_neg (Int.not_lt.mpr hhigh))

/-- The steam decision by the latch and the reading (R166). -/
theorem steamDecision_cases (l : Load) (target allowance h : Nat) :
    steamDecision l target allowance none = (false, 0) ∧
    (l.latch = true → target ≤ h → steamDecision l target allowance (some h) = (false, 0)) ∧
    (l.latch = true → h < target → steamDecision l target allowance (some h) = (true, allowance)) ∧
    (l.latch = false → h + 3 < target → steamDecision l target allowance (some h) = (true, allowance)) ∧
    (l.latch = false → target ≤ h + 3 → steamDecision l target allowance (some h) = (false, 0)) := by
  refine ⟨rfl, fun hon hh => ?_, fun hon hh => ?_, fun hoff hh => ?_, fun hoff hh => ?_⟩
  · simp [steamDecision, hon, hh]
  · simp [steamDecision, hon, hh]
  · simp [steamDecision, hoff, hh]
  · simp [steamDecision, hoff, hh]

/-! ## Kinds (R162, R167) -/

theorem PhaseKind.heats_iff (kind : PhaseKind) : kind.heats = true ↔ kind ≠ .fill ∧ kind ≠ .cool := by
  cases kind <;> decide

theorem PhaseKind.vents_eq (kind : PhaseKind) : kind.vents = !decide (kind = .fill ∨ kind = .settle) := by
  cases kind <;> decide

/-- A phase has heater stages when its kind has an allowance and it has a target (R162, R164). -/
theorem Phase.heated_eq_false {p : Phase} (h : p.kind = .fill ∨ p.kind = .cool ∨ p.temp = 0) :
    (p.kind.heats && p.temp != 0) = false := by
  rcases h with h | h | h <;> simp [h, PhaseKind.heats]

theorem Phase.heated_eq_true {p : Phase} (hfill : p.kind ≠ .fill) (hcool : p.kind ≠ .cool) (htemp : p.temp ≠ 0) :
    (p.kind.heats && p.temp != 0) = true := by
  simp [(PhaseKind.heats_iff p.kind).mpr ⟨hfill, hcool⟩, htemp]

theorem cutHeaters_of_not_heated {p : Phase} (c : Settings) (power steam heaters : Nat)
    (h : p.kind = .fill ∨ p.kind = .cool ∨ p.temp = 0) : cutHeaters c p power steam heaters = 0 :=
  if_neg (Bool.eq_false_iff.mp (Phase.heated_eq_false h))

theorem cutHeaters_of_heated {p : Phase} (c : Settings) (power steam heaters : Nat) (hfill : p.kind ≠ .fill)
    (hcool : p.kind ≠ .cool) (htemp : p.temp ≠ 0) :
    cutHeaters c p power steam heaters = min heaters (heaterAllowance c power steam) :=
  if_pos (Phase.heated_eq_true hfill hcool htemp)

/-! ## Regulation at a sample (R153, R163, R164, R166) -/

section
variable (l : Load) (s : State) (p : Phase)

theorem regulate_of_phase {s : State} {i : Nat} {p : Phase} (hgate : s.load.gate = true)
    (hrequest : s.load.request = .phase i p) : regulate s = s.setLoad (s.load.regulated s p) := by
  simp [regulate, hgate, hrequest]

theorem regulated_steam : ((l.regulated s p).latch, (l.regulated s p).steam) =
    if p.kind = .steam then steamDecision l p.hum (steamAllowance s.cfg s.admittedPower) s.meas.sample.hum
    else (false, 0) := rfl

variable {p}

theorem regulated_heaters_of_not_heated (h : p.kind = .fill ∨ p.kind = .cool ∨ p.temp = 0) :
    (l.regulated s p).heaters = 0 := if_neg (Bool.eq_false_iff.mp (Phase.heated_eq_false h))

/-- The stages are cut to the allowance that the steam stages leave, then take one step within it (R163, R164). -/
theorem regulated_heaters_of_heated (hfill : p.kind ≠ .fill) (hcool : p.kind ≠ .cool) (htemp : p.temp ≠ 0) :
    (l.regulated s p).heaters =
      heaterStep (min l.heaters (heaterAllowance s.cfg s.admittedPower (l.regulated s p).steam))
        (heaterAllowance s.cfg s.admittedPower (l.regulated s p).steam) p.temp s.meas.sample.air := by
  rw [← cutHeaters_of_heated s.cfg s.admittedPower (l.regulated s p).steam l.heaters hfill hcool htemp]
  exact if_pos (Phase.heated_eq_true hfill hcool htemp)

end

/-! ## The outputs follow their inputs (R124, R161 to R169) -/

section
variable {s : State}

theorem gateOpen_iff : s.gateOpen = true ↔
    s.control.station = .member ∧ (∃ a, s.own = .admitted a) ∧ s.engine.loadRequest ≠ .off := by
  simp only [State.gateOpen, Bool.and_eq_true, s.isMember_iff, Holding.isAdmitted_iff, bne_iff_ne, and_assoc]

theorem follow_of_closed (h : s.gateOpen = false) : Load.follow s = Load.closed s :=
  if_neg (Bool.eq_false_iff.mp h)

theorem follow_of_purge (h : s.gateOpen = true) (hr : s.engine.loadRequest = .purge) :
    Load.follow s = Load.purging s := by
  simp [Load.follow, h, hr]

/-- The request became this phase, or the gate opened, just now (R166). -/
def State.FreshFor (s : State) (i : Nat) (p : Phase) : Prop := s.load.gate = false ∨ s.load.request ≠ .phase i p

theorem follow_of_phase {i : Nat} {p : Phase} (h : s.gateOpen = true) (hr : s.engine.loadRequest = .phase i p) :
    (s.FreshFor i p → Load.follow s = s.load.drive s true i p) ∧
      (¬ s.FreshFor i p → Load.follow s = s.load.drive s false i p) := by
  have hfollow : Load.follow s = s.load.drive s (!s.load.gate || s.load.request != .phase i p) i p := by
    simp [Load.follow, h, hr]
  have hfresh : (!s.load.gate || s.load.request != .phase i p) = true ↔ s.FreshFor i p := by
    simp [State.FreshFor]
  refine ⟨fun hf => ?_, fun hf => ?_⟩
  · rw [hfollow, hfresh.mpr hf]
  · rw [hfollow, Bool.eq_false_iff.mpr fun ht => hf (hfresh.mp ht)]

/-- Whether just opened or not, the gate open for a phase has these outputs (R161 to R163, R167 to R169). -/
structure Load.DrivenFor (l : Load) (s : State) (i : Nat) (p : Phase) : Prop where
  gate : l.gate = true
  request : l.request = .phase i p
  vent : l.vent = if p.kind = .fill ∨ p.kind = .settle then 0 else s.own.held Share.vent
  valve : l.valve = true ↔ p.kind = .fill ∧ s.own.held Share.fill = 1 ∧ s.meas.sample.reservoir ≠ .full
  fan : l.fan = true ↔ p.kind ≠ .fill
  dry : p.kind ≠ .steam → l.latch = false ∧ l.steam = 0
  cold : p.kind = .fill ∨ p.kind = .cool ∨ p.temp = 0 → l.heaters = 0
  heated : p.kind ≠ .fill → p.kind ≠ .cool → p.temp ≠ 0 →
    l.heaters = min s.load.heaters (heaterAllowance s.cfg s.admittedPower l.steam)

theorem drive_drivenFor (fresh : Bool) (i : Nat) (p : Phase) (hm : s.isMember = true) :
    (s.load.drive s fresh i p).DrivenFor s i p where
  gate := rfl
  request := rfl
  vent := by by_cases h : p.kind = .fill ∨ p.kind = .settle <;> simp [Load.drive, PhaseKind.vents_eq, h]
  valve := by simp [Load.drive, State.fillWanted]
  fan := by simp [Load.drive, fanOn, hm]
  dry h := by simp [Load.drive, h]
  cold h := cutHeaters_of_not_heated _ _ _ _ h
  heated hfill hcool htemp := cutHeaters_of_heated _ _ _ _ hfill hcool htemp

/-- A fresh request of a STEAM phase sets the latch ON (R166). -/
theorem drive_steam_of_fresh (i : Nat) {p : Phase} (hkind : p.kind = .steam) :
    (s.load.drive s true i p).latch = true ∧
      (s.load.drive s true i p).steam = steamAllowance s.cfg s.admittedPower := by
  simp [Load.drive, hkind]

/-- Otherwise the latch stays and the stages are cut to the allowance (R163, R166). -/
theorem drive_steam_of_stays (i : Nat) {p : Phase} (hkind : p.kind = .steam) :
    (s.load.drive s false i p).latch = s.load.latch ∧ (s.load.drive s false i p).steam =
      if s.load.latch then min s.load.steam (steamAllowance s.cfg s.admittedPower) else 0 := by
  simp [Load.drive, hkind]

theorem follow_drivenFor {i : Nat} {p : Phase} (h : s.gateOpen = true) (hr : s.engine.loadRequest = .phase i p) :
    (Load.follow s).DrivenFor s i p := by
  have hm : s.isMember = true := s.isMember_iff.mpr (gateOpen_iff.mp h).1
  obtain ⟨fresh, stays⟩ := follow_of_phase h hr
  by_cases hf : s.FreshFor i p
  · rw [fresh hf]; exact drive_drivenFor true i p hm
  · rw [stays hf]; exact drive_drivenFor false i p hm

/-- The fan does not depend on the own record (R168). -/
theorem closed_fan : fanOn s.isMember s.engine.loadRequest =
    decide (s.control.station = .member ∧ (s.engine.loadRequest = .purge ∨
      (s.engine.state = .running .active ∧ s.engine.current.kind ≠ .fill))) := by
  rw [Bool.eq_iff_iff]
  cases hr : s.engine.loadRequest with
  | off =>
    have hidle : s.engine.state ≠ .running .active := fun hs => by simp [Engine.loadRequest, hs] at hr
    simp [fanOn, hidle]
  | phase i p =>
    obtain ⟨hs, -, rfl⟩ := loadRequest_phase hr
    simp [fanOn, hs, s.isMember_iff]
  | purge => simp [fanOn, s.isMember_iff]

end

/-- Settles O56: the two decisions, regulation, and the outputs by the gate and the load request. -/
theorem heaterAndSteamSteps : Obligations.HeaterAndSteamSteps := by
  unfold Obligations.HeaterAndSteamSteps
  refine ⟨heaterStep_cases, steamDecision_cases, fun s i p hgate hrequest => ?regulation, fun s => ?follows⟩
  case regulation =>
    have hregulate := regulate_of_phase hgate hrequest
    intro power steam t heaters
    have hload : t.load = s.load.regulated s p := congrArg State.load hregulate
    have hheaters : heaters = heaterAllowance s.cfg s.admittedPower t.load.steam := rfl
    refine ⟨regulate_eq s, ?_⟩
    rw [hheaters, hload]
    exact ⟨rfl, regulated_steam s.load s p, regulated_heaters_of_not_heated s.load s,
      regulated_heaters_of_heated s.load s⟩
  case follows =>
    intro power vent steamMost t
    refine ⟨rfl, ?request, gateOpen_iff, fun i p hopen hr => ?phase, fun hopen hr => ?purge, fun hclosed => ?closed⟩
    case request =>
      unfold Engine.loadRequest
      rcases s.engine.state with _ | _ | b | _ | _ | _
      case running => cases b <;> rfl
      all_goals rfl
    case phase =>
      intro fresh
      obtain ⟨hgate, hrequest, hvent, hvalve, hfan, hdry, hcold, hheated⟩ := follow_drivenFor hopen hr
      obtain ⟨hfresh, hstays⟩ := follow_of_phase hopen hr
      refine ⟨hgate, hrequest, hvent, hvalve, hfan, hdry, fun hkind hf => ?_, fun hkind hf => ?_, hcold, hheated⟩
      · have hload : t.load = s.load.drive s true i p := hfresh hf
        rw [hload]
        exact drive_steam_of_fresh i hkind
      · have hload : t.load = s.load.drive s false i p := hstays hf
        rw [hload]
        exact drive_steam_of_stays i hkind
    case purge =>
      have hm : s.isMember = true := s.isMember_iff.mpr (gateOpen_iff.mp hopen).1
      have hload : t.load = Load.purging s := follow_of_purge hopen hr
      rw [hload, Load.purging, hm]
      rfl
    case closed =>
      have hload : t.load = Load.closed s := follow_of_closed hclosed
      rw [hload, Load.closed, closed_fan]

end Sys2Proof.Machine
end

section
/-! SUPPORT. The tick (R136, R137, R47, log 9): what the clocks leave, how the events of time follow each other, and the
statement about a step on an empty queue. -/

namespace Sys2Proof.Machine

/-! ## The clocks (R6, R47, R136) -/

/-- The end of a phase that a tick brings, in the words of R137. -/
theorem Engine.endsNow_iff (e : Engine) : e.endsNow = true ↔ e.state = .running .active ∧
    (e.current.stop = .time → e.current.duration * 40000 ≤ e.phaseTimer + 1) ∧
    (e.current.stop ≠ .time → e.current.limit * 40000 ≤ e.limitTimer + 1) := by
  rw [show 40000 = Config.ticksPerSecond from rfl]
  by_cases h : e.current.stop = .time <;> simp [Engine.endsNow, h]

/-- The phase and limit timers count while ACTIVE, but for the tick that ends the phase (R136, R137). -/
theorem Engine.tick_eq (s : State) : s.engine.tick = { s.engine with
    phaseTimer := if s.isActive ∧ s.engine.endsNow = false then s.engine.phaseTimer + 1 else s.engine.phaseTimer
    limitTimer :=
      if s.isActive ∧ s.engine.endsNow = false ∧ s.engine.current.stop ≠ .time then s.engine.limitTimer + 1
      else s.engine.limitTimer
    purge := s.engine.purge.tick } := by
  simp [Engine.tick, State.isActive, and_assoc]

/-- The clocks do not decide anew whether the tick ends the phase (R137). -/
theorem Engine.tick_endsNow {e : Engine} (h : e.endsNow = true) : e.tick = { e with purge := e.purge.tick } := by
  simp [Engine.tick, h]

theorem Table.rec?_tick (t : Table) (id : Nat) :
    t.tick.rec? id = (t.rec? id).map (fun r => { r with lease := r.lease.tick }) := by
  unfold Table.tick Table.rec?
  split
  · simp only [Vector.getElem_map]
    rfl
  · rfl

/-- What the clocks leave alone. -/
theorem advanceTimers_keeps (s : State) : (advanceTimers s).out = s.out ∧ (advanceTimers s).cfg = s.cfg ∧
    (advanceTimers s).fault = s.fault ∧ (advanceTimers s).load = s.load ∧ (advanceTimers s).pending = s.pending ∧
    (advanceTimers s).free = s.free := by
  simp [advanceTimers]

/-- What the clocks advance of the line, Station Control, the Measurement Unit and the port (R6, R153, R157, R188). -/
theorem advanceTimers_advances (s : State) : (advanceTimers s).line = s.line.tick ∧
    (advanceTimers s).control = { s.control with
      rejoinTimer := s.control.rejoinTimer.tick, memberTimer := s.control.memberTimer.tick } ∧
    (advanceTimers s).meas = { s.meas with
      debounce := s.meas.debounce.tick, nextSample := s.meas.nextSample.tick } ∧
    (advanceTimers s).port = { s.port with taken := s.port.taken.map (fun x => { x with left := x.left - 1 }) } := by
  simp [advanceTimers]

/-! ## The events of time (log 9) -/

theorem fire_of_due {s : State} {e : TimeEvent} (h : e.due s = true) : e.fire s = refresh (e.act s) := if_pos h

/-- Events that are not due leave the state to the later ones. -/
theorem fireAll_of_none {s : State} {es : List TimeEvent} (h : ∀ e ∈ es, e.due s = false) :
    es.foldl TimeEvent.fire s = s := by
  induction es with
  | nil => rfl
  | cons e rest ih =>
    have hskip : TimeEvent.fire s e = s := if_neg (Bool.eq_false_iff.mp (h e List.mem_cons_self))
    rw [List.foldl_cons, hskip]
    exact ih fun x hx => h x (List.mem_cons_of_mem e hx)

/-- The first event that is due is taken, and the later ones follow it. -/
theorem fireAll_of_first {s : State} {es before after : List TimeEvent} {e : TimeEvent}
    (hes : es = before ++ e :: after) (hbefore : ∀ d ∈ before, d.due s = false) (he : e.due s = true) :
    es.foldl TimeEvent.fire s = after.foldl TimeEvent.fire (refresh (e.act s)) := by
  rw [hes, List.foldl_append, fireAll_of_none hbefore, List.foldl_cons, fire_of_due he]

/-- With no event due the tick is its clocks and the end of a phase that it brings. -/
theorem tick_of_none {s : State} (h : ∀ e ∈ timeEvents, e.due (advanceTimers s) = false) :
    tick s = refresh (firePhaseEnd s.engine.endsNow (advanceTimers s)) := by
  rw [tick, fireAll_of_none h]

theorem tick_of_first {s : State} {before after : List TimeEvent} {e : TimeEvent}
    (hes : timeEvents = before ++ e :: after) (hbefore : ∀ d ∈ before, d.due (advanceTimers s) = false)
    (he : e.due (advanceTimers s) = true) :
    tick s = refresh (firePhaseEnd s.engine.endsNow
      (after.foldl TimeEvent.fire (refresh (e.act (advanceTimers s))))) := by
  rw [tick, fireAll_of_first hes hbefore he]

/-- The phase still ends after the clocks alone have advanced (R137). -/
theorem firePhaseEnd_advanceTimers {s : State} (h : s.engine.endsNow = true) :
    firePhaseEnd s.engine.endsNow (advanceTimers s) =
      if s.engine.current.stop = .time then durationReached (advanceTimers s) else limitReached (advanceTimers s) := by
  have hengine : (advanceTimers s).engine = { s.engine with purge := s.engine.purge.tick } := Engine.tick_endsNow h
  have hends : (advanceTimers s).engine.endsNow = true := by rw [hengine]; exact h
  have hcurrent : (advanceTimers s).engine.current = s.engine.current := by rw [hengine]; rfl
  rw [firePhaseEnd, hends, h, phaseTimeUp, hcurrent]
  rfl

/-- Settles O2: what the clocks leave, and the three ways a tick goes on. -/
theorem emptyQueueTicks : Obligations.EmptyQueueTicks := by
  unfold Obligations.EmptyQueueTicks
  intro s hempty
  refine ⟨by rw [step, hempty], ?_⟩
  intro u ends
  obtain ⟨hout, hcfg, hfault, hload, hpending, hfree⟩ := advanceTimers_keeps s
  obtain ⟨hline, hcontrol, hmeas, hport⟩ := advanceTimers_advances s
  refine ⟨s.engine.endsNow_iff, ⟨rfl, rfl, fun _ => rfl⟩, Engine.tick_eq s, s.table.rec?_tick, rfl, hline, hcontrol, hmeas,
    hport, hout, hcfg, hfault, hload, hpending, hfree, ?acts, fun v => ?dues, fun hnone hends => ?quiet,
    fun before e after => tick_of_first, fun hnone hends => ?phaseEnd⟩
  case acts => simp [timeEvents]
  case dues => simp [timeEvents]
  case quiet =>
    rw [tick_of_none hnone, hends]
    rfl
  case phaseEnd => rw [tick_of_none hnone, firePhaseEnd_advanceTimers hends]

end Sys2Proof.Machine
end

section
/-! SUPPORT. The loads after a step (R161 to R169): every step ends with the Load Drive's judgement, and the statement about
it. -/

namespace Sys2Proof.Machine

/-- Settles O5: every step answers what the Load Drive has judged afresh, and that judgement is safe whatever the state. -/
theorem loadsStaySafe : Obligations.LoadsStaySafe := by
  unfold Obligations.LoadsStaySafe
  intro s t hstep
  obtain ⟨u, hu⟩ := step_refresh s
  have ht : t = refresh u := by
    rw [hu] at hstep
    cases hstep
    rfl
  rw [ht]
  exact loadSafe_refresh u

end Sys2Proof.Machine
end

section
/-! SUPPORT. A sample set (R153 to R155, R158, R159): the readings, the run counts, what the engine and the Load Drive leave
alone of the state a sample was stored in, and the statement about it. -/

namespace Sys2Proof.Machine

theorem exec_sampleSet (inp : Sensors) (s : State) : exec (.sampleSet inp) s = .next (refresh (takeSample inp s)) := rfl

/-! ## Readings (R154) -/

/-- Rounding goes to a nearest multiple, whatever the free value says of a half way value. -/
theorem roundTo_nearest {unit : Int} (up : Bool) (x : Int) (hunit : 0 < unit) :
    -unit ≤ 2 * (unit * roundTo unit up x - x) ∧ 2 * (unit * roundTo unit up x - x) ≤ unit := by
  have hsplit := Int.mul_ediv_add_emod x unit
  have hnonneg := Int.emod_nonneg x hunit.ne'
  have hless := Int.emod_lt_of_pos x hunit
  simp only [roundTo, mul_ite, mul_add_one]
  split_ifs <;> omega

section
variable {sensor : Sensor} {x : Int} (up : Bool)

theorem airReading_of_unmeasured (h : sensor = .openCircuit ∨ sensor = .shorted) : airReading up sensor = none := by
  rcases h with rfl | rfl <;> rfl

theorem airReading_of_outside (h : sensor = .measured x) (hx : x < -1000 ∨ 12000 < x) :
    airReading up sensor = none := by
  rw [h]
  exact if_neg (by omega)

/-- A measured value from -10.0 to 120.0 degrees gives its nearest half degree. -/
theorem airReading_of_inside (h : sensor = .measured x) (hlow : -1000 ≤ x) (hhigh : x ≤ 12000) :
    ∃ q, airReading up sensor = some q ∧ -25 ≤ 50 * q - x ∧ 50 * q - x ≤ 25 := by
  obtain ⟨hbelow, habove⟩ := roundTo_nearest (unit := 50) up x (by decide)
  rw [h]
  exact ⟨_, if_pos ⟨hlow, hhigh⟩, by omega, by omega⟩

theorem humReading_of_unmeasured (h : sensor = .openCircuit ∨ sensor = .shorted) : humReading up sensor = none := by
  rcases h with rfl | rfl <;> rfl

theorem humReading_of_outside (h : sensor = .measured x) (hx : x < 0 ∨ 10000 < x) : humReading up sensor = none := by
  rw [h]
  exact if_neg (by omega)

/-- A measured value from 0 to 100 percent gives its nearest percent, which is no less than 0. -/
theorem humReading_of_inside (h : sensor = .measured x) (hlow : 0 ≤ x) (hhigh : x ≤ 10000) :
    ∃ q : Nat, humReading up sensor = some q ∧ -50 ≤ 100 * (q : Int) - x ∧ 100 * (q : Int) - x ≤ 50 := by
  obtain ⟨hbelow, habove⟩ := roundTo_nearest (unit := 100) up x (by decide)
  have hnat : ((roundTo 100 up x).toNat : Int) = roundTo 100 up x := Int.toNat_of_nonneg (by omega)
  rw [h]
  exact ⟨_, if_pos ⟨hlow, hhigh⟩, by omega, by omega⟩

end

theorem levelOf_cases (high low : Bool) :
    (levelOf high low = .empty ↔ high = false ∧ low = false) ∧ (levelOf high low = .low ↔ high = false ∧ low = true) ∧
    (levelOf high low = .ok ↔ high = true ∧ low = false) ∧ (levelOf high low = .full ↔ high = true ∧ low = true) := by
  cases high <;> cases low <;> decide

/-- A run count is one more up to 255, or 0 (R155). -/
theorem runCount_eq (valid : Bool) (n : Nat) : runCount valid n = if valid then 0 else min (n + 1) 255 := by
  unfold runCount
  split_ifs <;> omega

/-! ## What the engine leaves alone of a stored sample's state -/

/-- What the two takers of a stored sample leave alone: the state with engine, Fault Record, list, event ring, load outputs
and low-reported mark masked (R153). -/
def State.besideSample (s : State) : State :=
  (s.changed Engine.reset none { s.meas with lowReported := false } OutList.reset Ring.reset).setLoad State.reset.load

@[simp] theorem State.setEngine_besideSample (s : State) (e : Engine) :
    (s.setEngine e).besideSample = s.besideSample := rfl
@[simp] theorem State.setOut_besideSample (s : State) (o : OutList) : (s.setOut o).besideSample = s.besideSample := rfl
@[simp] theorem State.setLoad_besideSample (s : State) (l : Load) : (s.setLoad l).besideSample = s.besideSample := rfl
@[simp] theorem State.changed_besideSample (s : State) (e : Engine) (f : Option FaultRecord) (o : OutList) (r : Ring) :
    (s.changed e f s.meas o r).besideSample = s.besideSample := rfl
@[simp] theorem refresh_besideSample (s : State) : (refresh s).besideSample = s.besideSample := rfl
@[simp] theorem emit_besideSample (k : EventKind) (a b c d e : Nat) (s : State) :
    (emit k a b c d e s).besideSample = s.besideSample := rfl
@[simp] theorem setSub_besideSample (b : Substate) (s : State) : (setSub b s).besideSample = s.besideSample := rfl
@[simp] theorem laterFault_besideSample (c : FaultCode) (s : State) :
    (laterFault c s).besideSample = s.besideSample := rfl
@[simp] theorem takeReason_besideSample (r : HoldReason) (s : State) :
    (takeReason r s).besideSample = s.besideSample := rfl

@[simp] theorem postClaim_besideSample (s : State) : (postClaim s).besideSample = s.besideSample := by
  unfold postClaim
  cases hm : s.isMember with
  | true => rw [postIntent_of_member _ hm, State.setOut_besideSample]
  | false => rw [postIntent_of_not_member _ hm]

@[simp] theorem giveUpShare_besideSample (s : State) : (giveUpShare s).besideSample = s.besideSample := by
  rw [giveUpShare_eq, State.setOut_besideSample]
@[simp] theorem enterFaulted_besideSample (c : FaultCode) (b : FaultSub) (s : State) :
    (enterFaulted c b s).besideSample = s.besideSample := by
  rw [enterFaulted_eq, State.changed_besideSample]
@[simp] theorem enterHeld_besideSample (r : HoldReason) (l : Option Substate) (s : State) :
    (enterHeld r l none s).besideSample = s.besideSample := by
  rw [enterHeld_none_eq, State.changed_besideSample]
@[simp] theorem completeCycle_besideSample (s : State) : (completeCycle s).besideSample = s.besideSample := by
  rw [completeCycle_eq, State.changed_besideSample]

@[simp] theorem addReason_besideSample (r : HoldReason) (s : State) : (addReason r s).besideSample = s.besideSample := by
  cases h : s.engine.holds.has r with
  | true => rw [addReason_of_held h]
  | false => rw [addReason_eq h, State.changed_besideSample]

@[simp] theorem report_besideSample (c : FaultCode) (onset same : Bool) (s : State) :
    (report c onset same s).besideSample = s.besideSample := by
  cases hs : s.engine.state with
  | running b => simp [report, raiseFault, hs]
  | held => simp [report, raiseFault, hs]
  | faulted => simp only [report, hs]; split <;> simp
  | idle | loaded | complete => simp [report, hs]

@[simp] theorem reportAll_besideSample (same : Bool) (cs : List Condition) (s : State) :
    (reportAll same cs s).besideSample = s.besideSample := by
  unfold reportAll
  induction cs generalizing s with
  | nil => rfl
  | cons c rest ih => rw [List.foldl_cons, ih]; split <;> simp

@[simp] theorem claimPhase_besideSample (s : State) : (claimPhase s).besideSample = s.besideSample := by
  unfold claimPhase
  cases s.own <;> (simp only []; repeat' split) <;> simp
@[simp] theorem entryTests_besideSample (l : Option Substate) (s : State) :
    (entryTests l s).besideSample = s.besideSample := by
  unfold entryTests
  (simp only []; repeat' split) <;> simp
@[simp] theorem removeReason_besideSample (r : HoldReason) (s : State) :
    (removeReason r s).besideSample = s.besideSample := by
  simp only [removeReason, leaveHeld]
  split <;> simp
@[simp] theorem endPhase_besideSample (outcome : Nat) (s : State) :
    (endPhase outcome s).besideSample = s.besideSample := by
  simp only [endPhase, enterFresh]
  split <;> simp

@[simp] theorem endTest_besideSample (s : State) : (endTest s).besideSample = s.besideSample := by
  unfold endTest
  split <;> simp
@[simp] theorem tankTest_besideSample (s : State) : (tankTest s).besideSample = s.besideSample := by
  unfold tankTest
  (repeat' split) <;> simp
@[simp] theorem levelLow_besideSample (s : State) : (levelLow s).besideSample = s.besideSample := by
  unfold levelLow
  split <;> rfl

@[simp] theorem engineSample_besideSample (same : Bool) (cs : List Condition) (s : State) :
    (engineSample same cs s).besideSample = s.besideSample := by
  simp [engineSample]

/-- In either order of the two takers the engine handles the stored sample, and around it the load outputs alone may change
(R153). -/
theorem sampleStep_eq (d : Bool) (m : Sample) (s : State) : ∃ l l' : Load, sampleStep d m s =
    (engineSample s.engine.state.underWay (conditionsAt s m) ((storeSample m s).setLoad l)).setLoad l' := by
  cases d with
  | true =>
    have hdrive : regulate (refresh (storeSample m s)) =
        (storeSample m s).setLoad (regulate (refresh (storeSample m s))).load := regulate_eq _
    refine ⟨(regulate (refresh (storeSample m s))).load, (sampleStep true m s).load, ?_⟩
    rw [← hdrive]
    rfl
  | false => exact ⟨(storeSample m s).load, _, regulate_eq _⟩

theorem sampleStep_besideSample (d : Bool) (m : Sample) (s : State) :
    (sampleStep d m s).besideSample = (storeSample m s).besideSample := by
  obtain ⟨l, l', h⟩ := sampleStep_eq d m s
  rw [h]
  simp

/-! ## The statement -/

/-- Settles O53: what a sample stores is beside what the engine and the Load Drive then change, and each reading is a nearest
step or none. -/
theorem samplesAreStored : Obligations.SamplesAreStored := by
  unfold Obligations.SamplesAreStored
  refine ⟨fun s inp => ?stored, fun airUp humUp inp x => ?readings⟩
  case stored =>
    have kept : (refresh (takeSample inp s)).besideSample = _ := sampleStep_besideSample _ _ _
    have field {α : Type} (f : State → α) := congrArg f kept
    have hsample : (refresh (takeSample inp s)).meas.sample = sampleOf _ _ inp := field fun u => u.meas.sample
    have hair := field fun u => u.meas.airBad
    have hhum := field fun u => u.meas.humBad
    refine ⟨Config.freeBit s.free, Config.freeBit (s.free + 1), Config.freeBit (s.free + 2), _, exec_sampleSet inp s, rfl,
      hsample, ?_⟩
    simp only [hsample]
    refine ⟨hair.trans (runCount_eq _ _), hhum.trans (runCount_eq _ _), field fun u => u.meas.markOverTemp, ?sensor,
      field fun u => u.meas.markNoWater, field fun u => u.meas.doorOpen, field fun u => u.meas.debounce,
      field fun u => u.meas.inputs, field fun u => u.meas.nextSample, field State.line, field State.table,
      field State.control, field State.cfg, field State.pending, field State.free, ?port,
      field fun u => u.port.counters⟩
    case sensor => exact (field fun u => u.meas.markSensor).trans (congrArg₂ sensorAt hair.symm hhum.symm)
    case port => exact field fun u => { u.port with ring := s.port.ring, counters := s.port.counters }
  case readings =>
    obtain ⟨hempty, hlow, hok, hfull⟩ := levelOf_cases inp.rlvl1 inp.rlvl0
    exact ⟨airReading_of_unmeasured airUp, airReading_of_outside airUp, airReading_of_inside airUp,
      humReading_of_unmeasured humUp, humReading_of_outside humUp, humReading_of_inside humUp, hempty, hlow, hok, hfull,
      rfl⟩

end Sys2Proof.Machine
end

section
/-! SUPPORT. The conditions at a sample (R155, R159) and their reports to the engine (R172 to R176), and the statement about
them. -/

namespace Sys2Proof.Machine

/-! ## The conditions (R155, R159) -/

theorem overTempAt_iff (e : Engine) (m : Sample) : overTempAt e m = true ↔
    ∃ x, m.air = some x ∧ (170 < x ∨ (e.cls ≠ 0 ∧ 2 * ((e.maxTemp : Int) + 5) < x)) := by
  cases hair : m.air with
  | none => simp [overTempAt, hair]
  | some x => simp [overTempAt, hair]

theorem noWaterAt_iff (e : Engine) (m : Sample) : noWaterAt e m = true ↔
    m.reservoir = .empty ∧ e.state = .running .active ∧ e.current.kind = .steam := by
  simp [noWaterAt, and_assoc]

theorem sensorAt_iff (airBad humBad : Nat) : sensorAt airBad humBad = true ↔ 3 ≤ airBad ∨ 3 ≤ humBad := by
  simp [sensorAt]

/-! ## The reports of one sample (R172, R176) -/

/-- The codes of the conditions present, in the order of their reports (R158). -/
def presentCodes (cs : List Condition) : List FaultCode := (cs.filter Condition.present).map Condition.code

theorem reportAll_cons_present (same : Bool) {c : Condition} (cs : List Condition) (s : State) (h : c.present = true) :
    reportAll same (c :: cs) s = reportAll same cs (report c.code (!c.before) same s) := by
  simp only [reportAll, List.foldl_cons, h, if_true]

theorem reportAll_cons_absent (same : Bool) {c : Condition} (cs : List Condition) (s : State) (h : c.present = false) :
    reportAll same (c :: cs) s = reportAll same cs s := by
  simp only [reportAll, List.foldl_cons, h, Bool.false_eq_true, if_false]

theorem presentCodes_cons_present {c : Condition} (cs : List Condition) (h : c.present = true) :
    presentCodes (c :: cs) = c.code :: presentCodes cs := by
  simp [presentCodes, h]

theorem presentCodes_cons_absent {c : Condition} (cs : List Condition) (h : c.present = false) :
    presentCodes (c :: cs) = presentCodes cs := by
  simp [presentCodes, h]

/-- The record with these later faults counted, the last one named (R176). -/
def FaultRecord.withLater (r : FaultRecord) (codes : List FaultCode) : FaultRecord :=
  { r with later := r.later + codes.length, last := codes.getLast?.or r.last }

theorem FaultRecord.withLater_cons (r : FaultRecord) (c : FaultCode) (codes : List FaultCode) :
    r.withLater (c :: codes) = FaultRecord.withLater { r with later := r.later + 1, last := some c } codes := by
  have hlast : ((c :: codes).getLast?.or r.last) = codes.getLast?.or (some c) := by
    rw [List.getLast?_cons]
    cases codes.getLast? <;> rfl
  simp only [FaultRecord.withLater, hlast, List.length_cons]
  congr 1
  omega

/-- In FAULTED the conditions of the sample that brought the fault are later faults (R176). -/
theorem reportAll_of_faulted {cs : List Condition} {s : State} {r : FaultRecord} (hs : s.engine.state = .faulted)
    (hr : s.fault = some r) (hroom : r.later + (presentCodes cs).length ≤ 255) :
    reportAll true cs s = s.setFault (some (r.withLater (presentCodes cs))) := by
  induction cs generalizing s r with
  | nil =>
    show s = s.setFault (some r)
    rw [← hr]
    rfl
  | cons c rest ih =>
    cases hc : c.present with
    | false =>
      rw [presentCodes_cons_absent rest hc] at hroom ⊢
      rw [reportAll_cons_absent true rest s hc]
      exact ih hs hr hroom
    | true =>
      rw [presentCodes_cons_present rest hc] at hroom ⊢
      simp only [List.length_cons] at hroom
      have hlater : report c.code (!c.before) true s =
          s.setFault (some { r with later := r.later + 1, last := some c.code }) := by
        have hfull : r.later ≠ 255 := by omega
        simp [report, hs, laterFault, hr, hfull]
      have hrest : r.later + 1 + (presentCodes rest).length ≤ 255 := by omega
      rw [reportAll_cons_present true rest s hc, hlater, r.withLater_cons]
      exact ih (s := s.setFault _) hs rfl hrest

section
variable {s : State} {sub : FaultSub}

/-- The first condition present faults a cycle that is under way, and the others are its later faults (R172, R173, R176). -/
theorem reportAll_of_underWay {cs : List Condition} {first : FaultCode} {later : List FaultCode}
    (hsub : (∃ b, s.engine.state = .running b ∧ sub = .running b) ∨ (s.engine.state = .held ∧ sub = .held))
    (hcodes : presentCodes cs = first :: later) (hroom : later.length ≤ 255) : reportAll true cs s =
    s.changed s.engine.faulted (some ((s.faultRecord first sub).withLater later)) s.meas s.listReleased
      (s.port.ring.after .fault s.engine.index first.code s.engine.current.kind.code sub.code 0) := by
  induction cs with
  | nil => cases hcodes
  | cons c rest ih =>
    cases hc : c.present with
    | false =>
      rw [presentCodes_cons_absent rest hc] at hcodes
      rw [reportAll_cons_absent true rest s hc]
      exact ih hcodes
    | true =>
      rw [presentCodes_cons_present rest hc] at hcodes
      obtain ⟨rfl, rfl⟩ := List.cons.inj hcodes
      have hfirst : report c.code (!c.before) true s = enterFaulted c.code sub s := by
        rw [← raiseFault_of_underWay c.code hsub]
        rcases hsub with ⟨b, hs, -⟩ | ⟨hs, -⟩ <;> simp only [report, hs]
      rw [reportAll_cons_present true rest s hc, hfirst, enterFaulted_eq]
      exact reportAll_of_faulted rfl rfl (by simpa [State.faultRecord] using hroom)

/-- A FAULTED engine makes no test of a sample, and LEVEL_LOW is not generated (R137, R146, R156). -/
theorem tests_of_faulted (hs : s.engine.state = .faulted) : levelLow (tankTest (endTest s)) = s := by
  have hidle : s.engine.state.underWay = false := by rw [hs]; rfl
  have hend : endTest s = s := endTest_of_unmet (.inl (by simp [hs]))
  have htank : tankTest s = s := by
    cases hfull : s.meas.sample.tankFull with
    | true => exact tankTest_of_not_underWay hfull hidle
    | false => exact tankTest_of_room hfull (.inl (by simp [hs]))
  rw [hend, htank, levelLow_of_not (.inr (.inl hidle))]

/-- A sample that shows a condition while a cycle is under way faults it; the load outputs alone depend on the order of the
two takers (R153, R172). -/
theorem sampleStep_of_condition {m : Sample} {first : FaultCode} {later : List FaultCode} (d : Bool)
    (hsub : (∃ b, s.engine.state = .running b ∧ sub = .running b) ∨ (s.engine.state = .held ∧ sub = .held))
    (hcodes : presentCodes (conditionsAt s m) = first :: later) (hroom : later.length ≤ 255) :
    ∃ l : Load, sampleStep d m s =
      (s.changed s.engine.faulted (some (((storeSample m s).faultRecord first sub).withLater later))
        (storeSample m s).meas s.listReleased
        (s.port.ring.after .fault s.engine.index first.code s.engine.current.kind.code sub.code 0)).setLoad l := by
  obtain ⟨l, l', hstep⟩ := sampleStep_eq d m s
  have hunderWay : s.engine.state.underWay = true := by
    rcases hsub with ⟨b, hs, -⟩ | ⟨hs, -⟩ <;> rw [hs] <;> rfl
  refine ⟨l', ?_⟩
  rw [hstep, hunderWay, engineSample, reportAll_of_underWay (s := (storeSample m s).setLoad l) hsub hcodes hroom,
    tests_of_faulted rfl]
  rfl

end

/-! ## The statement -/

/-- The codes present at a sample: the first in the order of R158, and the others after it. -/
theorem presentCodes_conditionsAt {s : State} {m : Sample} {hot blind dry : Bool} (hhot : overTempAt s.engine m = hot)
    (hblind : sensorAt (runCount m.air.isSome s.meas.airBad) (runCount m.hum.isSome s.meas.humBad) = blind)
    (hdry : noWaterAt s.engine m = dry) (hsome : hot = true ∨ blind = true ∨ dry = true) :
    presentCodes (conditionsAt s m) = (if hot then .overTemp else if blind then .sensor else .noWater) ::
      ((if hot && blind then [.sensor] else []) ++ (if (hot || blind) && dry then [.noWater] else [])) := by
  simp only [presentCodes, conditionsAt, hhot, hblind, hdry]
  cases hot with
  | true => cases blind <;> cases dry <;> rfl
  | false =>
    cases blind with
    | true => cases dry <;> rfl
    | false =>
      obtain rfl : dry = true := by simpa using hsome
      rfl

/-- The Fault Record of a sample's first fault with the later ones of the same sample (R174 to R176). -/
theorem faultRecord_withLater {s : State} {sub : FaultSub} (m : Sample) (first : FaultCode) (later : List FaultCode)
    (hsub : (∃ b, s.engine.state = .running b ∧ sub = .running b) ∨ (s.engine.state = .held ∧ sub = .held)) :
    ((storeSample m s).faultRecord first sub).withLater later =
      ⟨first, s.engine.index, s.engine.current.kind, sub,
        if s.engine.state = .held then s.engine.holds else HoldSet.empty, m.air, m.hum, later.length, later.getLast?⟩ := by
  have hheld : sub = .held ↔ s.engine.state = .held := by
    rcases hsub with ⟨b, hs, rfl⟩ | ⟨hs, rfl⟩ <;> simp [hs]
  simp [FaultRecord.withLater, State.faultRecord, storeSample, hheld]

/-- Settles O55: the codes present at the sample are one fault and its later faults, which leave the engine with load request
off. -/
theorem conditionsFault : Obligations.ConditionsFault := by
  unfold Obligations.ConditionsFault
  refine ⟨overTempAt_iff, noWaterAt_iff, sensorAt_iff, fun s m d sub hsub => ?faults⟩
  intro hot blind dry hsome first later t
  have hroom : later.length ≤ 255 := by
    simp only [later, List.length_append]
    split_ifs <;> decide
  obtain ⟨l, hstep⟩ := sampleStep_of_condition d hsub (presentCodes_conditionsAt rfl rfl rfl hsome) hroom
  have ht : t = refresh _ := congrArg refresh hstep
  obtain ⟨hheaters, hsteam, hvent, hfan, hvalve⟩ : t.load.AllOff := by
    rw [ht, refresh_load]
    exact Load.follow_of_off (by rfl)
  rw [ht] at hheaters hsteam hvent hfan hvalve ⊢
  exact ⟨rfl, congrArg some (faultRecord_withLater m first later hsub), rfl, rfl, hheaters, hsteam, hvent, hfan, hvalve⟩

end Sys2Proof.Machine
end

section
/-! SUPPORT. The door (R141, R143 to R145, R147, R157): an edge of its input, its opening and its closing at the engine, and
the statement about them. -/

namespace Sys2Proof.Machine

theorem exec_doorEdge (s : State) : exec .doorEdge s = .next (refresh (edgeDoor s)) := rfl

theorem exec_doorChange (s : State) : exec .doorChange s = .next (refresh (changeDoor s)) := rfl

/-- An edge turns the input's level, and the debounce timer runs where the level then differs from the door state (R157). -/
theorem edgeDoor_eq (s : State) : edgeDoor s = s.setMeas { s.meas with
    doorPinClosed := !s.meas.doorPinClosed,
    debounce := if s.meas.doorPinClosed = !s.meas.doorOpen then .running 2000 else .stopped } := by
  simp only [edgeDoor, Bool.not_eq_eq_eq_not]
  rfl

/-! ## The change reaches the engine (R157) -/

/-- The state with the door state set and the debounce timer stopped (R157). -/
def State.doorSet (s : State) (isOpen : Bool) : State :=
  s.setMeas { s.meas with doorOpen := isOpen, debounce := .stopped }

section
variable {s : State}

theorem changeDoor_of_open (hrun : s.meas.debounce.isRunning = true) (hpin : s.meas.doorPinClosed = false) :
    changeDoor s = doorOpened (s.doorSet true) := by
  simp [changeDoor, hrun, hpin, State.doorSet]

theorem changeDoor_of_closed (hrun : s.meas.debounce.isRunning = true) (hpin : s.meas.doorPinClosed = true) :
    changeDoor s = doorClosed (s.doorSet false) := by
  simp [changeDoor, hrun, hpin, State.doorSet]

/-! ## The door opens (R141, R143) -/

theorem purgeStarts_iff : s.purgeStarts = true ↔ s.engine.state = .running .active ∧ s.control.station = .member ∧
    0 < s.own.held Share.vent ∧ s.cfg.purgeTime ≠ 0 := by
  simp only [State.purgeStarts, Holding.holdsVent, Bool.and_eq_true, beq_iff_eq, bne_iff_ne, decide_eq_true_iff,
    s.isMember_iff, and_assoc]

/-- With a purge the engine enters HELD with DOOR and keeps its share (R143). -/
theorem doorOpened_of_purge {b : Substate} (hs : s.engine.state = .running b) (hp : s.purgeStarts = true) :
    doorOpened s = s.changed
      { s.engine with state := .held, holds := ⟨false, true, false⟩, purge := .running (s.cfg.purgeTime.toNat * 40000) }
      s.fault s.meas s.out (s.port.ring.after .holdOn s.engine.index 2 2 b.code 0) := by
  simp only [doorOpened, hs, hp, if_true]
  rfl

/-- Without one it gives the share up (R141, R143). -/
theorem doorOpened_of_no_purge {b : Substate} (hs : s.engine.state = .running b) (hp : s.purgeStarts = false) :
    doorOpened s = s.changed
      { s.engine with state := .held, holds := ⟨false, true, false⟩, purge := .stopped }
      s.fault s.meas s.listReleased (s.port.ring.after .holdOn s.engine.index 2 2 b.code 0) := by
  simp only [doorOpened, hs, hp, Bool.false_eq_true, if_false, enterHeld_none_eq]
  rfl

/-- A HELD engine has DOOR after it, with HOLD_ON if it is new (R141). -/
theorem doorOpened_of_held (hs : s.engine.state = .held) : doorOpened s = s.changed
    { s.engine with holds := { s.engine.holds with door := true } } s.fault s.meas s.out
    (if s.engine.holds.door then s.port.ring
      else s.port.ring.after .holdOn s.engine.index 2 { s.engine.holds with door := true }.code 0 0) := by
  have hadd : doorOpened s = addReason .door s := by simp only [doorOpened, hs]
  rw [hadd]
  cases hdoor : s.engine.holds.door with
  | false => exact addReason_eq (r := .door) hdoor
  | true =>
    have hset : { s.engine.holds with door := true } = s.engine.holds := by rw [← hdoor]
    rw [addReason_of_held (r := .door) hdoor, hset]
    rfl

theorem doorOpened_of_not_underWay (hs : s.engine.state.underWay = false) : doorOpened s = s := by
  cases hstate : s.engine.state with
  | running b => simp [hstate, EngineState.underWay] at hs
  | held => simp [hstate, EngineState.underWay] at hs
  | idle | loaded | faulted | complete => simp only [doorOpened, hstate]

/-- The engine purges for a MEMBER whose record holds vent units: the vent and the fan run alone (R124, R165, R167, R168). -/
theorem follow_of_purging (hs : s.engine.state = .held) (hp : s.engine.purge.isRunning = true)
    (hm : s.control.station = .member) (hvent : 0 < s.own.held Share.vent) :
    Load.follow s = ⟨.purge, true, 0, 0, false, s.own.held Share.vent, true, false⟩ := by
  have hrequest : s.engine.loadRequest = .purge := by simp [Engine.loadRequest, hs, hp]
  have hadmitted : ∃ a, s.own = .admitted a := by
    cases hown : s.own with
    | admitted a => exact ⟨a, rfl⟩
    | none | waiting req grant => simp [hown, Holding.held] at hvent
  rw [follow_of_purge (gateOpen_iff.mpr ⟨hm, hadmitted, by simp [hrequest]⟩) hrequest, Load.purging,
    s.isMember_iff.mpr hm]
  rfl

/-! ## The door closes (R145, R147) -/

theorem doorClosed_of_no_door (h : s.engine.state ≠ .held ∨ s.engine.holds.door = false) : doorClosed s = s := by
  refine if_neg ?_
  rintro ⟨hs, hdoor⟩
  rcases h with h | h
  · exact h hs
  · rw [h] at hdoor
    cases hdoor

/-- With other reasons left the engine stays HELD, and a purge that runs stops with the share given up (R145). -/
theorem doorClosed_of_more (hs : s.engine.state = .held) (hdoor : s.engine.holds.door = true)
    (hmore : HoldSet.isEmpty { s.engine.holds with door := false } = false) :
    (s.engine.purge.isRunning = true → doorClosed s = s.changed
      { s.engine with holds := { s.engine.holds with door := false }, purge := .stopped } s.fault s.meas s.listReleased
      (s.port.ring.after .holdOff s.engine.index 2 { s.engine.holds with door := false }.code 0 0)) ∧
    (s.engine.purge.isRunning = false → doorClosed s = s.changed
      { s.engine with holds := { s.engine.holds with door := false } } s.fault s.meas s.out
      (s.port.ring.after .holdOff s.engine.index 2 { s.engine.holds with door := false }.code 0 0)) := by
  have htake : doorClosed s =
      if s.engine.purge.isRunning then endPurge (takeReason .door s) else takeReason .door s :=
    (if_pos ⟨hs, hdoor⟩).trans (if_neg (Bool.eq_false_iff.mp hmore))
  refine ⟨fun hp => ?_, fun hp => ?_⟩
  · rw [htake, hp, if_pos rfl, endPurge_eq]
    rfl
  · rw [htake, hp]
    rfl

/-- With none left the phase is re-entered, its timers kept (R145, R147). -/
theorem doorClosed_of_last (hs : s.engine.state = .held) (hholds : s.engine.holds = ⟨false, true, false⟩) :
    doorClosed s = entryTests none
      ((s.setEngine { s.engine with holds := HoldSet.empty, purge := .stopped }).setPort
        { s.port with
          ring := s.port.ring.after .holdOff s.engine.index 2 { s.engine.holds with door := false }.code 0 0 }) := by
  have hset : (s.engine.holds.put .door false).isEmpty = true := by rw [hholds]; rfl
  have hleave : doorClosed s = leaveHeld (takeReason .door s) :=
    (if_pos ⟨hs, by rw [hholds]⟩).trans (if_pos hset)
  rw [hleave]
  rfl

end

/-! ## The statement -/

/-- DOOR_CHANGE that changes the state so and no more. -/
theorem exec_doorChange_of_changed {s : State} {e : Engine} {m : Meas} {o : OutList} {r : Ring}
    (h : changeDoor s = s.changed e s.fault m o r) : ∃ t, exec .doorChange s = .next t ∧ Becomes s t e s.fault m o r ∧
      t.port = { s.port with ring := r } ∧ t.port.counters = s.port.counters ∧ KeepsPort s t ∧
      t.load = Load.follow (s.changed e s.fault m o r) := by
  rw [exec_doorChange, h]
  exact ⟨_, rfl, becomes_refresh, rfl, rfl, rfl, rfl⟩

/-- Settles O57: the edge, and the change by the engine's state and its hold-reason set. -/
theorem doorEdgesAndChanges : Obligations.DoorEdgesAndChanges := by
  unfold Obligations.DoorEdgesAndChanges
  refine ⟨fun s => ?edge, fun s hrun hpin => ?opens, fun s hrun hpin => ?closes⟩
  case edge =>
    refine ⟨_, exec_doorEdge s, ?_⟩
    rw [edgeDoor_eq]
    exact ⟨rfl, rfl, rfl, rfl, ⟨rfl, rfl, rfl, rfl⟩, ⟨rfl, rfl, rfl⟩, loadsFollow_refresh_of_load rfl⟩
  case opens =>
    intro meas
    have hopen := changeDoor_of_open hrun hpin
    refine ⟨fun b hs => ?running, fun hs => ?held, fun hs => ?other, purgeStarts_iff⟩
    case running =>
      cases hp : s.purgeStarts with
      | true =>
        obtain ⟨-, hm, hvent, -⟩ := purgeStarts_iff.mp hp
        obtain ⟨t, hexec, h, -, hcounters, hkeeps, hload⟩ :=
          exec_doorChange_of_changed (hopen.trans (doorOpened_of_purge hs hp))
        have hpurging := hload.trans (follow_of_purging rfl rfl hm hvent)
        refine ⟨t, hexec, h.meas, h.fault, h.ring, hcounters, hkeeps, h.base, h.line, h.table,
          h.control, h.follows, fun _ => ⟨h.engine, h.out, ?_⟩, nofun⟩
        rw [hpurging]
        exact ⟨rfl, rfl, rfl, rfl, rfl⟩
      | false =>
        obtain ⟨t, hexec, h, -, hcounters, hkeeps, -⟩ :=
          exec_doorChange_of_changed (hopen.trans (doorOpened_of_no_purge hs hp))
        obtain ⟨hheaters, hsteam, hvent, hfan, hvalve⟩ := h.off rfl
        exact ⟨t, hexec, h.meas, h.fault, h.ring, hcounters, hkeeps, h.base, h.line, h.table,
          h.control, h.follows, nofun, fun _ => ⟨h.engine, h.out, hheaters, hsteam, hvent, hfan, hvalve⟩⟩
    case held =>
      obtain ⟨t, hexec, h, -, hcounters, hkeeps, -⟩ :=
        exec_doorChange_of_changed (hopen.trans (doorOpened_of_held hs))
      exact ⟨t, hexec, h.meas, h.fault, ⟨h.line, h.out, h.table, h.control⟩, hcounters, hkeeps,
        h.base, h.follows, h.engine, h.ring⟩
    case other =>
      obtain ⟨t, hexec, h, hport, -⟩ := exec_doorChange_of_changed (hopen.trans (doorOpened_of_not_underWay hs))
      exact ⟨t, hexec, h.meas, h.engine, h.fault, hport, ⟨h.line, h.out, h.table, h.control⟩, h.base, h.follows⟩
  case closes =>
    intro meas left ring
    have hclosed := changeDoor_of_closed hrun hpin
    refine ⟨fun hs hdoor hmore => ?more, fun hs hholds => ?last, fun hother => ?other⟩
    case more =>
      obtain ⟨purging, calm⟩ := doorClosed_of_more (s := s.doorSet false) hs hdoor hmore
      cases hp : s.engine.purge.isRunning with
      | true =>
        obtain ⟨t, hexec, h, -, hcounters, hkeeps, -⟩ := exec_doorChange_of_changed (hclosed.trans (purging hp))
        exact ⟨t, hexec, h.meas, h.fault, h.ring, hcounters, hkeeps, h.base, h.line, h.table,
          h.control, h.follows, fun _ => ⟨h.engine, h.out⟩, nofun⟩
      | false =>
        obtain ⟨t, hexec, h, -, hcounters, hkeeps, -⟩ := exec_doorChange_of_changed (hclosed.trans (calm hp))
        exact ⟨t, hexec, h.meas, h.fault, h.ring, hcounters, hkeeps, h.base, h.line, h.table,
          h.control, h.follows, nofun, fun _ => ⟨h.engine, h.out⟩⟩
    case last =>
      rw [exec_doorChange, hclosed, doorClosed_of_last (s := s.doorSet false) hs hholds]
      rfl
    case other =>
      obtain ⟨t, hexec, h, hport, -⟩ := exec_doorChange_of_changed (hclosed.trans (doorClosed_of_no_door hother))
      exact ⟨t, hexec, h.meas, h.engine, h.fault, hport, ⟨h.line, h.out, h.table, h.control⟩, h.base, h.follows⟩

end Sys2Proof.Machine
end

section
/-! SUPPORT. The event ring, the counters and ATTN (R194 to R198), and the statement about them. -/

namespace Sys2Proof.Machine

/-! ## The ring (R195, R196) -/

theorem Ring.full_iff (r : Ring) : r.full = true ↔ r.unread.toNat = 31 := by
  simp only [Ring.full, Ring.unread, beq_iff_eq]
  bv_omega

section
variable {r : Ring} (kind subject d0 d1 d2 d3 : Byte)

/-- With room an event is stored at NEXT_IN. -/
theorem Ring.record_of_room (h : r.unread.toNat ≠ 31) : r.record kind subject d0 d1 d2 d3 = { r with
    seq := r.seq + 1
    entries := r.entries.set r.nextIn.toNat ⟨r.seq, kind, subject, d0, d1, d2, d3⟩ r.nextIn.isLt
    nextIn := r.nextIn + 1 } :=
  if_neg fun hfull => h (r.full_iff.mp hfull)

/-- In a full ring an event is lost and counted. -/
theorem Ring.record_of_full (h : r.unread.toNat = 31) : r.record kind subject d0 d1 d2 d3 = { r with
    seq := r.seq + 1, firstLost := if r.lost = 0 then r.seq else r.firstLost, lost := satInc r.lost } :=
  if_pos (r.full_iff.mpr h)

end

/-! ## Saturation (R194) -/

theorem satInc_toNat (n : Half) : (satInc n).toNat = min (n.toNat + 1) 65535 := by
  unfold satInc
  split
  case isTrue h => subst h; rfl
  case isFalse h => bv_omega

/-! ## ATTN (R198) -/

theorem attnLow_iff (s : State) :
    s.attnLow = true ↔ s.port.ring.nextIn ≠ s.port.ring.nextOut ∧ s.cfg.attention ≠ 0 := by
  simp [State.attnLow, Ring.isEmpty]

/-- Settles O31: an event stored and an event lost, one count, and ATTN. -/
theorem eventsAndCounts : Obligations.EventsAndCounts := by
  unfold Obligations.EventsAndCounts
  refine ⟨fun r k a d0 d1 d2 d3 => ?ring, fun s c => ⟨?count, keepsCounters_of_bump rfl⟩, attnLow_iff⟩
  case ring =>
    intro u
    by_cases h : r.unread.toNat = 31
    · have hu : u = _ := Ring.record_of_full k a d0 d1 d2 d3 h
      rw [hu]
      exact ⟨rfl, rfl, fun hroom => absurd h hroom, fun _ => ⟨rfl, rfl, satInc_toNat r.lost, rfl⟩⟩
    · have hu : u = _ := Ring.record_of_room k a d0 d1 d2 d3 h
      rw [hu]
      exact ⟨rfl, rfl, fun _ => ⟨rfl, Vector.getElem_set_self _,
        fun i hi hne => Vector.getElem_set_ne r.nextIn.isLt hi hne.symm, rfl, rfl⟩, fun hfull => absurd hfull h⟩
  case count =>
    rw [counter_of_bump (s := s) rfl, satInc_toNat]

end Sys2Proof.Machine
end

section
/-! SUPPORT. The command rows at the port (R187 to R192): a code field that is not free, SNAPSHOT PEERS, CLEAR
COUNTERS and an undefined code, the resets and the completion, and the statements about them. -/

namespace Sys2Proof.Machine

/-! ## The rows -/

/-- The ten command rows whose code decides for itself, and their codes (R189). -/
def decidedRows : List (Instr × Byte) :=
  [(.startStation, 0x01), (.leaveStation, 0x02), (.rejoin, 0x03), (.loadCycle, 0x10), (.startCycle, 0x11),
    (.hold, 0x12), (.resume, 0x13), (.abortCycle, 0x14), (.clearFault, 0x15), (.snapshotPeers, 0x20)]

/-- The twelve command rows with their codes (R189). -/
def commandRows (inp : Inputs) : List (Instr × Byte) := decidedRows ++ [(.clearCounters, 0x21), (.restart inp, 0x3F)]

theorem commandRow_cases {c : Instr} {code : Byte} {inp : Inputs} (h : (c, code) ∈ commandRows inp) :
    (c, code) ∈ decidedRows ∨ (c = .clearCounters ∧ code = 0x21) ∨ (c = .restart inp ∧ code = 0x3F) := by
  simpa [commandRows] using h

/-- A row whose code decides for itself is that decision at the take. -/
theorem exec_decidedRow {c : Instr} {code : Byte} (h : (c, code) ∈ decidedRows) :
    (∀ s, exec c s = .next (refresh (hostCommand code (decideCode code) s))) ∧ code ≠ 0x3F ∧ code ≠ 0x21 := by
  simp only [decidedRows, List.mem_cons, Prod.mk.injEq, List.not_mem_nil, or_false] at h
  rcases h with ⟨rfl, rfl⟩ | ⟨rfl, rfl⟩ | ⟨rfl, rfl⟩ | ⟨rfl, rfl⟩ | ⟨rfl, rfl⟩ | ⟨rfl, rfl⟩ | ⟨rfl, rfl⟩ | ⟨rfl, rfl⟩ |
    ⟨rfl, rfl⟩ | ⟨rfl, rfl⟩
  all_goals exact ⟨fun s => rfl, by decide, by decide⟩

theorem exec_snapshotPeers (s : State) :
    exec .snapshotPeers s = .next (refresh (hostCommand 0x20 (fun t => (snapshot t, .ok)) s)) := rfl
theorem exec_clearCounters (s : State) : exec .clearCounters s = .next (refresh
    (if codeRefused 0x21 s then discardCommand s else answered .ok (clearAtTake (storeCode 0x21 s)))) := rfl
theorem exec_restart (inp : Inputs) (s : State) : exec (.restart inp) s = .next (refresh
    (if codeRefused 0x3F s then discardCommand s else resetPart inp s)) := rfl
theorem exec_completion (s : State) : exec .completion s = .next (refresh (complete s)) := rfl

theorem exec_badCommand {code : Byte} (hcode : code ≠ 0) (s : State) : exec (.badCommand code) s =
    .next (refresh (hostCommand code (fun t => (t, .badCommand code)) s)) :=
  congrArg (fun u => Host.Outcome.next (refresh u)) (if_neg fun h => hcode h.1)

/-- A code outside the twelve is answered BAD_COMMAND (R189). -/
theorem decideCode_of_undefined {code : Byte} (h : code ∉ commandCodes) :
    decideCode code = fun t => (t, .badCommand code) := by
  simp only [commandCodes, List.mem_cons, List.not_mem_nil, or_false, not_or] at h
  obtain ⟨h1, h2, h3, h4, h5, h6, h7, h8, h9, h10, -, -⟩ := h
  simp only [decideCode, if_neg h1, if_neg h2, if_neg h3, if_neg h4, if_neg h5, if_neg h6, if_neg h7, if_neg h8,
    if_neg h9, if_neg h10]

/-- BAD_COMMAND with a code outside the twelve is the decision of that code. -/
theorem exec_undefinedCode {code : Byte} (hne : code ≠ 0) (hundefined : code ∉ commandCodes) :
    (∀ s, exec (.badCommand code) s = .next (refresh (hostCommand code (decideCode code) s))) ∧
      code ≠ 0x3F ∧ code ≠ 0x21 :=
  ⟨fun s => by rw [decideCode_of_undefined hundefined, exec_badCommand hne],
    fun h => hundefined (by simp [h, commandCodes]), fun h => hundefined (by simp [h, commandCodes])⟩

/-! ## The end of a transaction (R181, R87, R187) -/

theorem endTransaction_of_opened {s : State} {x : OpenTxn} (h : s.port.txn = .opened x) :
    endTransaction s = endCounts x.lostConfig x.lostCode (s.setPort s.port.released) := by
  simp [endTransaction, h]

theorem endTransaction_of_not_opened {s : State} (h : ∀ x, s.port.txn ≠ .opened x) :
    endTransaction s = s.setPort s.port.released := by
  unfold endTransaction
  split
  · next x hx => exact absurd hx (h x)
  all_goals rfl

theorem closeTransaction_of_not_opened {s : State} (h : ∀ x, s.port.txn ≠ .opened x) :
    closeTransaction s = s.setPort s.port.released := by
  rw [← endTransaction_of_not_opened h]
  unfold closeTransaction
  split
  · next x hx => exact absurd hx (h x)
  all_goals rfl

theorem closeTransaction_of_unstored {s : State} {x : OpenTxn} (h : s.port.txn = .opened x)
    (hstored : x.storedCode = false) : closeTransaction s = endTransaction s := by
  simp [closeTransaction, h, hstored]

theorem closeTransaction_of_stored {s : State} {x : OpenTxn} (h : s.port.txn = .opened x)
    (hstored : x.storedCode = true) : closeTransaction s = takeStored s := by
  simp [closeTransaction, h, hstored]

/-- A transaction that lost no byte ends without a count. -/
theorem endTransaction_of_nothing_lost {s : State}
    (h : ∀ x, s.port.txn = .opened x → x.lostCode = false ∧ x.lostConfig = false) :
    endTransaction s = s.setPort s.port.released := by
  by_cases hopen : ∃ x, s.port.txn = .opened x
  · obtain ⟨x, hx⟩ := hopen
    obtain ⟨hcode, hconfig⟩ := h x hx
    rw [endTransaction_of_opened hx, hcode, hconfig]
    rfl
  · exact endTransaction_of_not_opened fun x hx => hopen ⟨x, hx⟩

/-- The counts of a transaction are those of its lost bytes (R87, R187). -/
theorem endCounts_counter (lostConfig lostCode : Bool) (s : State) :
    (endCounts lostConfig lostCode s).counter .configRefused =
        (if lostConfig then satInc (s.counter .configRefused) else s.counter .configRefused) ∧
      (endCounts lostConfig lostCode s).counter .commandsDiscarded =
        (if lostCode then satInc (s.counter .commandsDiscarded) else s.counter .commandsDiscarded) ∧
      KeepsCounters [.configRefused, .commandsDiscarded] s (endCounts lostConfig lostCode s) := by
  unfold endCounts
  refine ⟨?config, ?code, fun c hc => ?others⟩
  case others =>
    obtain ⟨hconfig, hcode⟩ : c ≠ .configRefused ∧ c ≠ .commandsDiscarded := by simpa using hc
    cases lostConfig <;> cases lostCode <;> simp [hconfig, hcode]
  all_goals cases lostConfig <;> cases lostCode <;> simp

/-! ## A code field that is not free (R187) -/

theorem hostCommand_of_refused {s : State} {code : Byte} (act : State → State × Result)
    (hrefused : codeRefused code s = true) : hostCommand code act s = discardCommand s := if_pos hrefused

theorem discardCommand_of_closed {s : State} (h : s.port.txn = .closed) :
    discardCommand s = bump .commandsDiscarded (s.setPort s.port.released) := by
  simp [discardCommand, endTransaction, h]

/-- Every command row discards its code when the code field is not free (R187). -/
theorem exec_commandRow_of_refused {s : State} {c : Instr} {code : Byte} {inp : Inputs}
    (hrow : (c, code) ∈ commandRows inp ∨ (c = .badCommand code ∧ code ≠ 0 ∧ code ∉ commandCodes))
    (hrefused : codeRefused code s = true) : exec c s = .next (refresh (discardCommand s)) := by
  have decided : (∀ u, exec c u = .next (refresh (hostCommand code (decideCode code) u))) →
      exec c s = .next (refresh (discardCommand s)) := fun hexec => by rw [hexec, hostCommand_of_refused _ hrefused]
  rcases hrow with hrow | ⟨rfl, hne, hundefined⟩
  · rcases commandRow_cases hrow with hrow | ⟨rfl, rfl⟩ | ⟨rfl, rfl⟩
    · exact decided (exec_decidedRow hrow).1
    · rw [exec_clearCounters, if_pos hrefused]
    · rw [exec_restart, if_pos hrefused]
  · exact decided (exec_undefinedCode hne hundefined).1

/-- Settles O10: the row discards its code, and with no transaction open the discard is one count. -/
theorem busyPortDiscards : Obligations.BusyPortDiscards := by
  unfold Obligations.BusyPortDiscards
  intro s c code inp hrow hrefused htxn
  have hexec := exec_commandRow_of_refused (inp := inp) hrow hrefused
  rw [discardCommand_of_closed htxn] at hexec
  exact ⟨_, hexec, counter_of_bump (s := s) rfl, keepsCounters_of_bump (s := s) rfl, rfl, rfl, rfl, rfl,
    ⟨rfl, rfl, rfl, rfl⟩, ⟨rfl, rfl, rfl⟩, ⟨rfl, rfl, rfl, rfl⟩, ⟨rfl, rfl, rfl⟩, loadsFollow_refresh_of_load rfl⟩

/-! ## SNAPSHOT PEERS, CLEAR COUNTERS and an undefined code (R189 to R191) -/

/-- Where no count is due the free value decides nothing: the counts are cleared and the transaction ends (R191,
log 6). -/
theorem clearAtTake_of_nothing_lost {s : State}
    (h : ∀ x, s.port.txn = .opened x → x.lostCode = false ∧ x.lostConfig = false) :
    clearAtTake s = clearCounts ((s.setFree (s.free + 1)).setPort s.port.released) := by
  have hfirst : endTransaction (clearCounts (s.setFree (s.free + 1))) =
      clearCounts ((s.setFree (s.free + 1)).setPort s.port.released) := endTransaction_of_nothing_lost h
  have hsecond : endTransaction (s.setFree (s.free + 1)) = (s.setFree (s.free + 1)).setPort s.port.released :=
    endTransaction_of_nothing_lost h
  unfold clearAtTake
  simp only [hfirst, hsecond, ite_self]

/-- After CLEAR COUNTERS every counter reads 0 (R191). -/
theorem counter_of_cleared {t : State} (h : t.port.counters = Vector.replicate 16 0) (c : Counter) :
    t.counter c = 0 := by
  unfold State.counter
  rw [h]
  exact Vector.getElem_replicate c.number.isLt

/-- Settles O22: the view is the table of the moment, an undefined code is answered alone, the counts are cleared. -/
theorem snapshotAndBadCommand : Obligations.SnapshotAndBadCommand := by
  unfold Obligations.SnapshotAndBadCommand
  refine ⟨fun s => ⟨fun hfree => ?snapshot, fun code hcode _ hfree => ?undefined⟩, fun s hfree hlost => ?clear⟩
  case snapshot =>
    have hexec := exec_snapshotPeers s
    rw [hostCommand_of_free hfree] at hexec
    refine ⟨_, hexec, rfl, rfl, rfl, rfl, rfl, ?records, rfl, rfl, rfl, rfl, ⟨rfl, rfl⟩, ⟨rfl, rfl, rfl⟩,
      ⟨rfl, rfl, rfl, rfl⟩, ⟨rfl, rfl, rfl⟩, loadsFollow_refresh_of_load rfl⟩
    have htenths : ∀ t : Timer, leaseTenths t = match t with
        | .running n => n / 4000
        | .stopped => 0
        | .runOut => 0 := fun t => by cases t <;> rfl
    exact congrArg (fun f => s.table.recs.map (fun r => r.map f))
      (funext fun x => congrArg (PeerRecord.mk x.seq x.holding) (htenths x.lease))
  case undefined =>
    exact ⟨rfl, rfl, answersOnly_of_unchanged (exec_badCommand hcode s) hfree rfl⟩
  case clear =>
    have hexec := exec_clearCounters s
    rw [if_neg (Bool.eq_false_iff.mp hfree), clearAtTake_of_nothing_lost (s := storeCode 0x21 s) hlost] at hexec
    exact ⟨_, hexec, ⟨rfl, rfl, rfl, rfl, rfl, ⟨rfl, rfl, rfl, rfl⟩⟩, counter_of_cleared rfl, rfl, rfl, rfl, rfl,
      ⟨rfl, rfl, rfl, rfl⟩, ⟨rfl, rfl, rfl⟩, loadsFollow_refresh_of_load rfl⟩

/-! ## The resets (R192) -/

/-- The three resets, RESTART with the code field free. -/
theorem exec_reset {s : State} {c : Instr} {inp : Inputs}
    (h : c = .powerOn inp ∨ c = .resetPin inp ∨ (c = .restart inp ∧ codeRefused 0x3F s = false)) :
    exec c s = .next (refresh (resetPart inp s)) := by
  rcases h with rfl | rfl | ⟨rfl, hfree⟩
  · rfl
  · rfl
  · rw [exec_restart, if_neg (Bool.eq_false_iff.mp hfree)]

/-- The first run count (R155). -/
theorem runCount_zero (valid : Bool) : runCount valid 0 = if valid then 0 else 1 := by
  cases valid <;> rfl

/-- One invalid reading is no run of three (R155). -/
theorem sensorAt_first (air hum : Bool) : sensorAt (runCount air 0) (runCount hum 0) = false := by
  cases air <;> cases hum <;> rfl

/-- Without a cycle table the cutoff alone makes OVER_TEMP (R155). -/
theorem overTempAt_reset (m : Sample) : overTempAt Engine.reset m = (match m.air with
    | some x => decide (170 < x)
    | none => false) := by
  unfold overTempAt
  cases m.air <;> simp [Engine.reset]

/-- Settles O23: every reset leaves the same part, whose loads the Load Drive then finds off. -/
theorem resetsReset : Obligations.ResetsReset := by
  unfold Obligations.ResetsReset
  intro s inp c hc
  refine ⟨Config.freeBit s.free, Config.freeBit (s.free + 1), _, exec_reset hc, rfl, rfl, rfl, rfl, rfl, rfl, rfl, rfl,
    rfl, rfl, rfl, rfl, runCount_zero _, runCount_zero _, rfl, rfl, rfl, rfl, rfl, rfl, ?overTemp, sensorAt_first _ _,
    rfl, rfl⟩
  exact overTempAt_reset _

/-! ## The completion (R188) -/

theorem complete_of_taken {s : State} {x : Taken} (h : s.port.taken = some x) :
    complete s = s.setPort { s.port with result := x.result, code := 0, taken := none } := by
  simp [complete, h]

/-- Settles O24: the completion of a taken command writes the port alone. -/
theorem completionWrites : Obligations.CompletionWrites := by
  unfold Obligations.CompletionWrites
  intro s x hx
  have hexec := exec_completion s
  rw [complete_of_taken hx] at hexec
  exact ⟨_, hexec, rfl, ⟨rfl, rfl, rfl⟩, ⟨rfl, rfl, rfl, rfl⟩, ⟨rfl, rfl, rfl⟩, loadsFollow_refresh_of_load rfl⟩

end Sys2Proof.Machine
end

section
/-! SUPPORT. A transaction from edge to edge (R181): a stored code taken as its transaction ends (R188), the byte times
of a transaction, and the statement about them. -/

namespace Sys2Proof.Machine

/-! ## A stored code is taken as its transaction ends (R188, log 14) -/

section
variable {s : State} {code : Byte}

/-- The code a transaction stored is not refused by itself. -/
theorem codeRefused_of_stored (hcode : s.port.code = code) (htaken : s.port.taken = none) :
    codeRefused code s = false := by
  simp [codeRefused, hcode, htaken]

theorem storeCode_of_stored (hcode : s.port.code = code) : storeCode code s = s := by
  rw [← hcode]
  rfl

theorem hostCommand_of_stored (act : State → State × Result) (hcode : s.port.code = code)
    (htaken : s.port.taken = none) :
    hostCommand code act s = answered (act (endTransaction s)).2 (act (endTransaction s)).1 := by
  unfold hostCommand
  rw [if_neg (Bool.eq_false_iff.mp (codeRefused_of_stored hcode htaken)), storeCode_of_stored hcode]

theorem takeStored_of_decided (hcode : s.port.code = code) (hrestart : code ≠ 0x3F) (hclear : code ≠ 0x21) :
    takeStored s =
      answered (decideCode code (endTransaction s)).2 (decideCode code (endTransaction s)).1 := by
  subst hcode
  rw [takeStored, if_neg hrestart, if_neg hclear]

/-- A row that is its code's decision is the take of that code stored (R188). -/
theorem exec_decided_of_stored {c : Instr} (hcode : s.port.code = code) (htaken : s.port.taken = none)
    (hrow : (∀ u, exec c u = .next (refresh (hostCommand code (decideCode code) u))) ∧ code ≠ 0x3F ∧ code ≠ 0x21) :
    exec c s = .next (refresh (takeStored s)) := by
  obtain ⟨hexec, hrestart, hclear⟩ := hrow
  rw [hexec, hostCommand_of_stored _ hcode htaken, takeStored_of_decided hcode hrestart hclear]

/-- The row of a stored code is its take (R188). -/
theorem exec_commandRow_of_stored {c : Instr} (hrow : (c, code) ∈ commandRows s.pinsNow) (hcode : s.port.code = code)
    (htaken : s.port.taken = none) : exec c s = .next (refresh (takeStored s)) := by
  have hfree := codeRefused_of_stored hcode htaken
  rcases commandRow_cases hrow with hrow | ⟨rfl, rfl⟩ | ⟨rfl, rfl⟩
  · exact exec_decided_of_stored hcode htaken (exec_decidedRow hrow)
  · have htake : takeStored s = answered .ok (clearAtTake s) := by
      rw [takeStored, hcode]
      rfl
    rw [exec_clearCounters, if_neg (Bool.eq_false_iff.mp hfree), storeCode_of_stored hcode, htake]
  · have htake : takeStored s = resetPart s.pinsNow s := if_pos hcode
    rw [exec_restart, if_neg (Bool.eq_false_iff.mp hfree), htake]

end

/-! ## Byte times (R181, R192) -/

section
variable {s : State} {b : SpiByte}

/-- A byte time in the middle of a transaction. -/
theorem portByte_of_inner (hstarts : b.starts = false) (hends : b.ends = false) : portByte b s = innerByte b s := by
  simp [portByte, hstarts, hends]

theorem innerByte_of_idle (h : s.port.txn = .closed ∨ s.port.txn = .ignored) : innerByte b s = s := by
  rcases h with h | h <;> simp [innerByte, h]

theorem innerByte_of_header {bytes : List Byte} (h : s.port.txn = .header bytes) : innerByte b s =
    s.setPort { s.port with
      txn := if b.whole then afterHeaderByte bytes b.value else .header bytes, sdo := .low } := by
  simp [innerByte, headerByte, h]

theorem innerByte_of_opened {x : OpenTxn} (h : s.port.txn = .opened x) : innerByte b s = dataByte b x s := by
  simp [innerByte, h]

/-- A byte of a transaction without effect, and a partial byte of a WRITE. -/
theorem dataByte_of_no_effect {x : OpenTxn} (h : x.mode = .dead ∨ (x.mode = .write ∧ b.whole = false)) :
    dataByte b x s = s.setPort { s.port with sdo := .low } := by
  rcases h with h | ⟨h, hpart⟩
  · simp [dataByte, h]
  · simp [dataByte, h, hpart]

end

/-- Settles O27: the edges of NCS, the header byte by byte, the counts at the end, and the take of a stored code. -/
theorem transactionsBeginAndEnd : Obligations.TransactionsBeginAndEnd := by
  unfold Obligations.TransactionsBeginAndEnd
  refine fun s b => ⟨fun hstarts => ?falls, fun hends => ?rises, fun hstarts hends => ?inner,
    closeTransaction_of_not_opened, fun x hx hstored => ?ended, fun x hx hstored htaken => ?taken, fun c hc => ?rows⟩
  case falls =>
    unfold portByte
    rw [if_pos hstarts]
    rfl
  case rises =>
    unfold portByte
    rw [if_pos hends]
    rfl
  case inner =>
    intro header
    rw [portByte_of_inner hstarts hends]
    refine ⟨innerByte_of_idle, fun bytes h hpart => ?_, fun h hwhole => ?_, fun cmd h hwhole => ?_,
      fun cmd hi h hwhole => ?_, fun x h hmode => ?_⟩
    · rw [innerByte_of_header h, hpart]
      rfl
    · rw [innerByte_of_header h, hwhole]
      rfl
    · rw [innerByte_of_header h, hwhole]
      rfl
    · rw [innerByte_of_header h, hwhole]
      rfl
    · rw [innerByte_of_opened h, dataByte_of_no_effect hmode]
  case ended =>
    have hcounts := endCounts_counter x.lostConfig x.lostCode (s.setPort s.port.released)
    rw [← endTransaction_of_opened hx] at hcounts
    obtain ⟨hconfig, hcode, hothers⟩ := hcounts
    rw [closeTransaction_of_unstored hx hstored]
    intro t
    exact ⟨endTransaction_port_txn s, endTransaction_port_sdo s, hconfig, hcode, hothers,
      endTransaction_port_ring s, endTransaction_port_code s, by simp [t, KeepsHostData], by simp [t, KeepsBase],
      by simp [t, KeepsLine], by simp [t, KeepsCabinet], endTransaction_load s⟩
  case taken =>
    rw [closeTransaction_of_stored hx hstored]
    exact ⟨fun c code hrow hcode => exec_commandRow_of_stored hrow hcode htaken,
      fun hne hundefined => exec_decided_of_stored rfl htaken (exec_undefinedCode hne hundefined)⟩
  case rows =>
    simp only [List.mem_cons, List.not_mem_nil, or_false] at hc
    rcases hc with rfl | rfl | rfl | rfl <;> rfl

end Sys2Proof.Machine
end

section
/-! SUPPORT. What a READ shifts out (R181 to R184, R193, R202, R204): the coherent regions and their latches, the
identity region, the status block, and the statements about them. -/

namespace Sys2Proof.Machine

/-! ## The coherent regions (R182, R183) -/

/-- The five regions read coherently with their first and last addresses (R183). -/
def coherentRegions : List (Coherent × Nat × Nat) :=
  [(.status, 0x090, 0x0BF), (.faultRecord, 0x0C0, 0x0CF), (.counters, 0x0D0, 0x0EF), (.ringControl, 0x0F0, 0x0F7),
    (.peerView, 0x300, 0x38F)]

theorem coherentOf_of_inside {r : Coherent} {first last a : Nat} (hr : (r, first, last) ∈ coherentRegions)
    (hlo : first ≤ a) (hhi : a ≤ last) : coherentOf a = some (r, first) := by
  simp only [coherentRegions, List.mem_cons, Prod.mk.injEq, List.not_mem_nil, or_false] at hr
  unfold coherentOf
  rcases hr with ⟨rfl, rfl, rfl⟩ | ⟨rfl, rfl, rfl⟩ | ⟨rfl, rfl, rfl⟩ | ⟨rfl, rfl, rfl⟩ | ⟨rfl, rfl, rfl⟩
  · rw [if_pos ⟨hlo, hhi⟩]
  · rw [if_neg (by omega), if_pos ⟨hlo, hhi⟩]
  · rw [if_neg (by omega), if_neg (by omega), if_pos ⟨hlo, hhi⟩]
  · rw [if_neg (by omega), if_neg (by omega), if_neg (by omega), if_pos ⟨hlo, hhi⟩]
  · rw [if_neg (by omega), if_neg (by omega), if_neg (by omega), if_neg (by omega), if_pos ⟨hlo, hhi⟩]

theorem coherentOf_of_outside {a : Nat}
    (h : ∀ r first last, ¬ ((r, first, last) ∈ coherentRegions ∧ first ≤ a ∧ a ≤ last)) : coherentOf a = none := by
  have apart : ∀ r first last, (r, first, last) ∈ coherentRegions → ¬ (first ≤ a ∧ a ≤ last) :=
    fun r first last hr hin => h r first last ⟨hr, hin⟩
  unfold coherentOf
  rw [if_neg (apart .status _ _ (by simp [coherentRegions])),
    if_neg (apart .faultRecord _ _ (by simp [coherentRegions])),
    if_neg (apart .counters _ _ (by simp [coherentRegions])),
    if_neg (apart .ringControl _ _ (by simp [coherentRegions])),
    if_neg (apart .peerView _ _ (by simp [coherentRegions]))]

theorem exchange_of_region (s : State) {a base : Nat} {r : Coherent} (h : coherentOf a = some (r, base)) :
    s.exchange a = byteAt (r.bytes s) (a - base) := by
  simp [State.exchange, h]

theorem exchange_of_plain (s : State) {a : Nat} (h : coherentOf a = none) : s.exchange a = plainByte s a := by
  simp [State.exchange, h]

/-! ## A byte of a READ (R183) -/

section
variable {s : State} {x : OpenTxn} {r : Coherent} {base : Nat}

theorem readByte_of_plain (h : coherentOf x.addr.toNat = none) : readByte x s = (x, s.exchange x.addr.toNat) := by
  rw [exchange_of_plain s h]
  simp [readByte, h]

/-- The region's first byte latches it. -/
theorem readByte_of_unlatched (h : coherentOf x.addr.toNat = some (r, base)) (hl : x.latches.get r = none) :
    readByte x s = ({ x with latches := x.latches.set r (r.bytes s) }, s.exchange x.addr.toNat) := by
  rw [exchange_of_region s h]
  simp [readByte, h, hl]

theorem readByte_of_latched {bs : List Byte} (h : coherentOf x.addr.toNat = some (r, base))
    (hl : x.latches.get r = some bs) : readByte x s = (x, byteAt bs (x.addr.toNat - base)) := by
  simp [readByte, h, hl]

/-- A byte of a READ that goes on changes the transaction and SDO alone (R181). -/
theorem exec_readRow {b : SpiByte} {y : OpenTxn} {v : Byte} (hstarts : b.starts = false) (hends : b.ends = false)
    (htxn : s.port.txn = .opened x) (hmode : x.mode = .read) (hread : readByte x s = (y, v)) :
    ∃ t, exec (.readLatch b) s = .next t ∧
      t.port = { s.port with sdo := .byte v, txn := .opened { y with addr := y.addr + 1 } } ∧
      KeepsBase s t ∧ KeepsLine s t ∧ KeepsCabinet s t ∧ LoadsFollow s t := by
  have hbyte : portByte b s = s.setPort { s.port with
      sdo := .byte v, txn := .opened { y with addr := y.addr + 1 } } := by
    rw [portByte_of_inner hstarts hends, innerByte_of_opened htxn]
    simp only [dataByte, hmode, hread]
    rfl
  have hexec : exec (.readLatch b) s = .next (refresh (portByte b s)) := rfl
  rw [hbyte] at hexec
  exact ⟨_, hexec, rfl, ⟨rfl, rfl, rfl⟩, ⟨rfl, rfl, rfl, rfl⟩, ⟨rfl, rfl, rfl⟩, loadsFollow_refresh_of_load rfl⟩

end

/-- Settles O26: the three ways a byte is found, each shifted out by the same byte time. -/
theorem readsAreCoherent : Obligations.ReadsAreCoherent := by
  unfold Obligations.ReadsAreCoherent
  intro s b x hstarts hends htxn hmode a inside shifted
  have shift : ∀ {y v}, readByte x s = (y, v) → _ := exec_readRow hstarts hends htxn hmode
  refine ⟨fun hout => ?plain, fun r first last hin hl => ⟨?latches, fun j hlo hhi => ?shows⟩,
    fun r first last bs hin hl => ?latched⟩
  case plain => exact shift (readByte_of_plain (coherentOf_of_outside hout))
  case latches =>
    obtain ⟨hr, hlo, hhi⟩ := hin
    exact shift (readByte_of_unlatched (coherentOf_of_inside hr hlo hhi) hl)
  case shows =>
    obtain ⟨hr, -, -⟩ := hin
    exact (exchange_of_region s (coherentOf_of_inside hr hlo hhi)).symm
  case latched =>
    obtain ⟨hr, hlo, hhi⟩ := hin
    exact shift (readByte_of_latched (coherentOf_of_inside hr hlo hhi) hl)

/-! ## The identity region (R184) -/

/-- The configuration-lock flag (R87, R184). -/
theorem exchange_lock (s : State) : s.exchange 0x003 = flagByte s.locked := rfl

theorem locked_iff (s : State) : s.locked = true ↔ s.control.station ≠ .offline := bne_iff_ne

/-- A reset releases the configuration lock (R87, R192). -/
theorem exchange_lock_of_reset {s t : State} {c : Instr} {inp : Inputs}
    (hc : c = .powerOn inp ∨ c = .resetPin inp ∨ (c = .restart inp ∧ codeRefused 0x3F s = false))
    (hexec : exec c s = .next t) : t.exchange 0x003 = 0 := by
  rw [exec_reset hc] at hexec
  cases hexec
  rfl

/-- Settles O28: the four bytes, of which the lock flag follows the station state. -/
theorem identityReads : Obligations.IdentityReads := by
  unfold Obligations.IdentityReads
  refine ⟨fun s => ⟨rfl, rfl, rfl, fun hl => ?engaged, fun hl => ?released, locked_iff s⟩,
    fun s inp => ⟨rfl, fun t => exchange_lock_of_reset (.inl rfl), fun t => exchange_lock_of_reset (.inr (.inl rfl)),
      fun t hfree => exchange_lock_of_reset (.inr (.inr ⟨rfl, hfree⟩))⟩⟩
  case engaged => rw [exchange_lock, hl]; rfl
  case released => rw [exchange_lock, hl]; rfl

/-! ## The status block (R193, R204) -/

theorem exchange_of_status (s : State) {a : Nat} (hlo : 0x090 ≤ a) (hhi : a ≤ 0x0BF) :
    s.exchange a = byteAt (statusBytes s) (a - 0x090) :=
  exchange_of_region s (r := .status) (coherentOf_of_inside (List.mem_cons_self ..) hlo hhi)

/-- The number an air temperature is stored as, 0 when invalid (R202). -/
def airWord (t : Option Int) : Nat :=
  match t with
  | some x => (x % 65536).toNat
  | none => 0

theorem airBytes_eq (t : Option Int) : airBytes t = twoBytes (airWord t) := by
  cases t with
  | none => rfl
  | some x => simp only [airBytes, airWord, BitVec.toNat_ofInt]; rfl

theorem humByte_eq (h : Option Nat) : humByte h = byteOf (h.getD 0) := by
  cases h <;> rfl

theorem validityByte_eq (air : Option Int) (hum : Option Nat) : validityByte air hum =
    (if air.isSome then 1 else 0) + (if hum.isSome then 2 else 0) := by
  cases air <;> cases hum <;> rfl

/-- The 34 bytes in use, 0x090 to 0x0B1 (R204). -/
theorem statusBytes_length (s : State) : (statusBytes s).length = 34 := by
  rw [statusBytes, airBytes_eq]
  rfl

/-- The bytes of the sample's air temperature (R193, R202). -/
theorem exchange_air (s : State) : s.exchange 0x0A6 = hiByte (airWord s.meas.sample.air) ∧
    s.exchange 0x0A7 = loByte (airWord s.meas.sample.air) := by
  rw [exchange_of_status s (by decide) (by decide), exchange_of_status s (by decide) (by decide), statusBytes,
    airBytes_eq]
  exact ⟨rfl, rfl⟩

theorem getD_append_of_length {head tail : List Byte} {n : Nat} (h : head.length = n) (i : Nat) :
    (head ++ tail).getD (n + i) 0 = tail.getD i 0 := by
  rw [List.getD_append_right _ _ _ _ (by omega), h, Nat.add_sub_cancel_left]

/-- The bytes from 0x0A8 on: the rest of the sample, the door and the loads (R193). -/
theorem exchange_status_tail (s : State) (i : Nat) (hi : i < 24) : s.exchange (0x0A8 + i) =
    [humByte s.meas.sample.hum, validityByte s.meas.sample.air s.meas.sample.hum, byteOf s.meas.sample.reservoir.code,
      flagByte s.meas.sample.tankFull, flagByte s.meas.doorOpen, byteOf s.load.heaters, byteOf s.load.steam,
      byteOf s.load.vent, flagByte s.load.fan, flagByte s.load.valve].getD i 0 := by
  have haddr : 0x0A8 + i - 0x090 = 24 + i := by omega
  rw [exchange_of_status s (by omega) (by omega), haddr, statusBytes, airBytes_eq, byteAt]
  exact getD_append_of_length rfl i

/-- Settles O29: the code tables, and the bytes in address order. -/
theorem statusBlockShows : Obligations.StatusBlockShows := by
  unfold Obligations.StatusBlockShows
  refine ⟨⟨rfl, rfl, rfl, fun _ => rfl, fun _ => ⟨rfl, rfl⟩, rfl, fun _ _ => rfl, fun _ => rfl, rfl, rfl⟩, fun s => ?_⟩
  obtain ⟨hairHi, hairLo⟩ := exchange_air s
  have tail := exchange_status_tail s
  refine ⟨rfl, rfl, rfl, rfl, rfl, ⟨?power, ?vent, ?fill⟩, rfl, rfl, rfl, rfl, ⟨Config.purgeShownUp, rfl⟩, rfl, rfl,
    rfl, rfl, rfl, rfl, rfl, rfl, rfl, fun hnone => ?noAir, fun x hx => ?air, (tail 0 (by decide)).trans (humByte_eq _),
    (tail 1 (by decide)).trans (validityByte_eq _ _), tail 2 (by decide), tail 3 (by decide), tail 4 (by decide),
    tail 5 (by decide), tail 6 (by decide), tail 7 (by decide), tail 8 (by decide), tail 9 (by decide),
    fun a hlo hhi => ?unused⟩
  case power => show byteOf s.own.amounts.1 = _; cases s.own <;> rfl
  case vent => show byteOf s.own.amounts.2.1 = _; cases s.own <;> rfl
  case fill => show byteOf s.own.amounts.2.2 = _; cases s.own <;> rfl
  case noAir => rw [hairHi, hairLo, hnone]; exact ⟨rfl, rfl⟩
  case air => rw [hairHi, hairLo, hx]; exact ⟨rfl, rfl⟩
  case unused =>
    rw [exchange_of_status s (by omega) hhi, byteAt]
    exact List.getD_eq_default _ _ (by rw [statusBytes_length]; omega)

end Sys2Proof.Machine
end

section
/-! SUPPORT. The staging memory (R182, R192): which operations leave it alone, that a store and a reset keep it
canonical, and the statement about every step. -/

namespace Sys2Proof.Machine

/-! ## What the canonical form depends on -/

theorem StagingOk.congr {s t : State} (h : StagingOk s) (he : t.port.staging = s.port.staging) : StagingOk t := by
  unfold StagingOk
  rw [he]
  exact h

/-- What the mask of Laws/Outside.lean leaves keeps its staging memory. -/
theorem StagingOk.of_outside {s t : State} (h : StagingOk s) (he : t.outside = s.outside) : StagingOk t :=
  h.congr (outside_staging he)

/-- A store within the staging area keeps it (R182). -/
theorem StagingOk.store {s : State} (h : StagingOk s) {a : Nat} (ha : 0x100 ≤ a ∧ a ≤ 0x1FF) (v : Byte) :
    StagingOk (s.setPort { s.port with staging := Memory.write s.port.staging a v }) := by
  obtain ⟨hwf, hempty⟩ := h
  refine ⟨Memory.wf_write a v hwf, fun j hj => ?_⟩
  have hne : j ≠ a := by omega
  exact (Memory.read_write a v j hwf).trans ((if_neg hne).trans (hempty j hj))

/-- A reset empties the staging area (R192). -/
theorem resetPart_staging (inp : Inputs) (s : State) : StagingOk (resetPart inp s) := ⟨rfl, fun _ _ => rfl⟩

/-! ## Commands at their take (R187 to R191) -/

theorem startStation_outside (s : State) : (startStation s).1.outside = s.outside := by
  unfold startStation
  split
  · split
    · rfl
    · exact startGathering_outside s
  · rfl

theorem leaveStation_outside (s : State) : (leaveStation s).1.outside = s.outside := by
  unfold leaveStation
  split
  · split <;> simp
  · rfl

theorem rejoin_outside (s : State) : (rejoin s).1.outside = s.outside := by
  unfold rejoin
  split <;> simp

theorem loadCycle_outside (s : State) : (loadCycle s).1.outside = s.outside := by
  unfold loadCycle
  split
  case h_1 | h_2 | h_3 => split <;> rfl
  all_goals rfl

/-- START CYCLE touches the low-reported flag, and else what entering a phase touches (R128, R156). -/
theorem startCycle_staging (s : State) : (startCycle s).1.port.staging = s.port.staging := by
  have henters : (enterFresh 0 none (s.setMeas { s.meas with lowReported := false })).port.staging = s.port.staging :=
    (outside_staging (enterFresh_outside 0 none _) :)
  unfold startCycle
  split
  case h_5 | h_6 =>
    split
    · rfl
    · split
      · rfl
      · exact henters
  all_goals rfl

theorem hold_outside (s : State) : (hold s).1.outside = s.outside := by
  unfold hold
  split <;> simp

theorem resume_outside (s : State) : (resume s).1.outside = s.outside := by
  unfold resume
  split
  · split <;> simp
  all_goals rfl

theorem abortCycle_outside (s : State) : (abortCycle s).1.outside = s.outside := by
  unfold abortCycle
  split <;> simp

theorem clearFault_outside (s : State) : (clearFault s).1.outside = s.outside := by
  unfold clearFault
  split
  · split <;> rfl
  all_goals rfl

/-- No code's effects at its take touch the staging memory (R189). -/
theorem decideCode_staging (code : Byte) (s : State) : (decideCode code s).1.port.staging = s.port.staging := by
  unfold decideCode
  split
  · exact outside_staging (startStation_outside s)
  split
  · exact outside_staging (leaveStation_outside s)
  split
  · exact outside_staging (rejoin_outside s)
  split
  · exact outside_staging (loadCycle_outside s)
  split
  · exact startCycle_staging s
  split
  · exact outside_staging (hold_outside s)
  split
  · exact outside_staging (resume_outside s)
  split
  · exact outside_staging (abortCycle_outside s)
  split
  · exact outside_staging (clearFault_outside s)
  split
  · rfl
  · rfl

theorem clearAtTake_staging (s : State) : (clearAtTake s).port.staging = s.port.staging := by
  unfold clearAtTake
  split
  · exact endTransaction_port_staging _
  · exact endTransaction_port_staging (s.setFree (s.free + 1))

theorem closeTransaction_keepsStaging {s : State} (h : StagingOk s) : StagingOk (closeTransaction s) := by
  have hended : StagingOk (endTransaction s) := h.congr (endTransaction_port_staging s)
  unfold closeTransaction takeStored
  split
  · split
    · split
      · exact resetPart_staging _ s
      · split
        · exact h.congr (clearAtTake_staging s)
        · exact hended.congr (decideCode_staging _ (endTransaction s))
    · exact hended
  all_goals exact hended

theorem discardCommand_keepsStaging {s : State} (h : StagingOk s) : StagingOk (discardCommand s) := by
  unfold discardCommand
  split
  · exact closeTransaction_keepsStaging h
  all_goals exact h.congr (endTransaction_port_staging s)

/-- A host command keeps the staging memory as its decision does (R188). -/
theorem hostCommand_keepsStaging {s : State} (code : Byte) {act : State → State × Result}
    (hact : ∀ u, (act u).1.port.staging = u.port.staging) (h : StagingOk s) : StagingOk (hostCommand code act s) := by
  unfold hostCommand
  split
  · exact discardCommand_keepsStaging h
  · exact h.congr ((hact _).trans (endTransaction_port_staging (storeCode code s)))

/-! ## Byte times of the port (R181, R182) -/

/-- Of the regions the staging area alone stores in the staging memory (R182). -/
theorem writeByte_keepsStaging {s : State} (a : Nat) (v : Byte) (x : OpenTxn) (h : StagingOk s) :
    StagingOk (writeByte a v x s) := by
  unfold writeByte
  split
  · unfold writeConfig
    split <;> exact h
  split
  · unfold writeNextOut
    simp only []
    split <;> exact h
  unfold writeRegister
  split
  · unfold writeCode
    split <;> exact h
  split
  · exact h
  split
  · exact h
  split
  · next ha => exact h.store ha v
  · exact h

theorem advanceAddr_staging (s : State) : (advanceAddr s).port.staging = s.port.staging := by
  unfold advanceAddr
  split <;> rfl

theorem innerByte_keepsStaging {s : State} (b : SpiByte) (h : StagingOk s) : StagingOk (innerByte b s) := by
  unfold innerByte
  split
  · exact h
  · unfold dataByte
    simp only []
    split
    · split
      · exact (writeByte_keepsStaging (s := s.setPort s.port.sdoLow) _ _ _ h).congr (advanceAddr_staging _)
      · exact h
    · exact h.congr (advanceAddr_staging _)
    · exact h
  all_goals exact h

theorem portByte_keepsStaging {s : State} (b : SpiByte) (h : StagingOk s) : StagingOk (portByte b s) := by
  have hbegun : StagingOk (if b.starts then beginHeader (closeTransaction s) else s) := by
    split
    · exact closeTransaction_keepsStaging h
    · exact h
  have hinner := innerByte_keepsStaging b hbegun
  unfold portByte
  simp only []
  split
  · exact closeTransaction_keepsStaging hinner
  · exact hinner

/-! ## Frames, samples and the door -/

/-- The end of an own frame may use a free value, and is else outside the staging memory (R98, log 5). -/
theorem ownEnd_staging (f : Frame) (r : Reading) (driveFault void : Bool) (s : State) :
    (ownEnd f r driveFault void s).port.staging = s.port.staging := by
  have ended : ∀ u t : State, t.port.staging = s.port.staging → u.outside = t.outside →
      u.port.staging = s.port.staging := fun u t ht hu => (outside_staging hu).trans ht
  unfold ownEnd
  simp only []
  generalize s.line.frameEnded _ = l
  split
  · split
    · split
      · exact ended _ ((s.setLine l).setFree (s.free + 1)) rfl (by simp)
      · exact ended _ ((s.setLine l).setFree (s.free + 1)) rfl (by simp)
    · exact ended _ s rfl (by simp)
  · exact ended _ s rfl (by simp)

theorem frameEnd_staging (kind : BitVec 4) (r : Reading) (void : Bool) (s : State) :
    (frameEnd kind r void s).port.staging = s.port.staging := by
  have hheard : ∀ u : State, u.outside = s.outside → (heardEnd kind r void u).port.staging = s.port.staging :=
    fun u hu => outside_staging ((heardEnd_outside kind r void u).trans hu)
  unfold frameEnd
  split
  · rfl
  · rfl
  · exact hheard s rfl
  · exact hheard s rfl
  split
  · exact hheard s rfl
  split
  · exact ownEnd_staging ..
  · exact ownEnd_staging ..
  · simp only []
    split
    · exact hheard _ (loseArbitration_outside [] s)
    · exact outside_staging (loseArbitration_outside [] s)

theorem takeSample_staging (inp : Sensors) (s : State) : (takeSample inp s).port.staging = s.port.staging :=
  (congrArg (fun u : State => u.port.staging) (sampleStep_besideSample _ _ _) :)

theorem changeDoor_staging (s : State) : (changeDoor s).port.staging = s.port.staging := by
  unfold changeDoor
  simp only []
  split
  · split
    · exact (outside_staging (doorOpened_outside _) :)
    · exact (outside_staging (doorClosed_outside _) :)
  · rfl

theorem complete_staging (s : State) : (complete s).port.staging = s.port.staging := by
  unfold complete
  split <;> rfl

/-! ## A tick (log 9) -/

/-- No event of time touches the staging memory. -/
theorem timeEvents_staging {e : TimeEvent} (he : e ∈ timeEvents) (s : State) :
    (e.act s).port.staging = s.port.staging := by
  simp only [timeEvents, List.mem_append, List.mem_map, List.mem_cons, List.not_mem_nil, or_false] at he
  rcases he with (rfl | ⟨i, -, rfl⟩) | rfl | rfl | rfl | rfl | rfl | rfl | rfl | rfl | rfl
  · exact complete_staging s
  · exact outside_staging (peerLeaseOut_outside (i + 1) s)
  · exact outside_staging (renewalOut_outside s)
  · exact outside_staging (selfLeaseOut_outside s)
  · exact outside_staging (windowOut_outside s)
  · exact outside_staging (rejoinTimeout_outside s)
  · exact outside_staging (membershipTimeout_outside s)
  · exact changeDoor_staging s
  · exact outside_staging (purgeRanOut_outside s)
  · exact takeSample_staging _ s
  · exact outside_staging (idleReached_outside false s)

theorem fireAll_staging {es : List TimeEvent} (hes : es ⊆ timeEvents) (s : State) :
    (es.foldl TimeEvent.fire s).port.staging = s.port.staging := by
  induction es generalizing s with
  | nil => rfl
  | cons e rest ih =>
    obtain ⟨he, hrest⟩ := List.cons_subset.mp hes
    refine (ih hrest _).trans ?_
    unfold TimeEvent.fire
    split
    · exact timeEvents_staging he s
    · rfl

theorem firePhaseEnd_outside (due : Bool) (s : State) : (firePhaseEnd due s).outside = s.outside := by
  unfold firePhaseEnd phaseTimeUp
  split
  · split <;> simp
  · rfl

theorem tick_staging (s : State) : (tick s).port.staging = s.port.staging :=
  calc (tick s).port.staging
    _ = (timeEvents.foldl TimeEvent.fire (advanceTimers s)).port.staging :=
      (outside_staging (firePhaseEnd_outside _ _) :)
    _ = s.port.staging := fireAll_staging (List.Subset.refl _) _

/-! ## Every command -/

/-- Every command keeps the staging memory canonical and inside its area. -/
theorem exec_keepsStaging {c : Instr} {s t : State} (h : StagingOk s) (he : exec c s = .next t) : StagingOk t := by
  have ends : ∀ {u : State}, StagingOk u → finish u = .next t → StagingOk t := fun hu hfinish => by
    cases hfinish
    exact hu
  have quiet : ∀ {u : State}, u.outside = s.outside → finish u = .next t → StagingOk t :=
    fun hu => ends (h.of_outside hu)
  have frame : ∀ k r void, finish (frameEnd k r void s) = .next t → StagingOk t := fun k r void =>
    ends (h.congr (frameEnd_staging k r void s))
  have command : ∀ code (act : State → State × Result), (∀ u, (act u).1.port.staging = u.port.staging) →
      finish (hostCommand code act s) = .next t → StagingOk t := fun code _ hact =>
    ends (hostCommand_keepsStaging code hact h)
  cases c with
  | startStation => exact command _ _ (fun u => outside_staging (startStation_outside u)) he
  | leaveStation => exact command _ _ (fun u => outside_staging (leaveStation_outside u)) he
  | rejoin => exact command _ _ (fun u => outside_staging (rejoin_outside u)) he
  | loadCycle => exact command _ _ (fun u => outside_staging (loadCycle_outside u)) he
  | startCycle => exact command _ _ startCycle_staging he
  | hold => exact command _ _ (fun u => outside_staging (hold_outside u)) he
  | resume => exact command _ _ (fun u => outside_staging (resume_outside u)) he
  | abortCycle => exact command _ _ (fun u => outside_staging (abortCycle_outside u)) he
  | clearFault => exact command _ _ (fun u => outside_staging (clearFault_outside u)) he
  | snapshotPeers => exact command _ _ (fun u => rfl) he
  | clearCounters =>
    refine ends ?_ he
    split
    · exact discardCommand_keepsStaging h
    · exact h.congr (clearAtTake_staging (storeCode 0x21 s))
  | restart inp =>
    refine ends ?_ he
    split
    · exact discardCommand_keepsStaging h
    · exact resetPart_staging inp s
  | badCommand code =>
    refine ends ?_ he
    split
    · exact h.congr (endTransaction_port_staging s)
    · exact hostCommand_keepsStaging code (fun _ => rfl) h
  | powerOn inp | resetPin inp => exact ends (resetPart_staging inp s) he
  | configWrite b | nextOutWrite b | registerWrite b | readLatch b => exact ends (portByte_keepsStaging b h) he
  | idle d => exact quiet (idleReached_outside d s) he
  | falseStart => exact quiet (falseStarted_outside s) he
  | arbitrationLost bit => exact quiet (arbitrationLostAt_outside bit s) he
  | abandonedFrame d => exact quiet (frameAbandoned_outside d s) he
  | expire r | leave r | release r | claim r | rollcall r | standing r => exact frame _ r false he
  | undefinedKindFrame k r => exact frame k r false he
  | voidFrame k r => exact frame k r true he
  | peerLeaseTimeout peer => exact quiet (peerLeaseOut_outside peer.toNat s) he
  | renewalTimeout => exact quiet (renewalOut_outside s) he
  | selfLease => exact quiet (selfLeaseOut_outside s) he
  | rollcallWindowTimeout => exact quiet (windowOut_outside s) he
  | autoRejoin => exact quiet (rejoinTimeout_outside s) he
  | membershipTimeout => exact quiet (membershipTimeout_outside s) he
  | sampleSet inp => exact ends (h.congr (takeSample_staging inp s)) he
  | doorEdge => exact ends (u := edgeDoor s) h he
  | doorChange => exact ends (h.congr (changeDoor_staging s)) he
  | purgeTimeout => exact quiet (purgeRanOut_outside s) he
  | phaseDurationReached => exact quiet (durationReached_outside s) he
  | phaseLimitReached => exact quiet (limitReached_outside s) he
  | completion => exact ends (h.congr (complete_staging s)) he

/-- Settles O8: a tick leaves the staging memory alone, and a command leaves it, stores a byte in it or empties it. -/
theorem stagingStaysCanonical : Obligations.StagingStaysCanonical := by
  unfold Obligations.StagingStaysCanonical
  intro s t h hstep
  unfold step at hstep
  split at hstep
  · cases hstep
    exact h.congr (tick_staging s)
  · next c rest _ => exact exec_keepsStaging (s := s.setPending rest) h hstep

end Sys2Proof.Machine
end

section
/-! SUPPORT. The regions of the exchange area besides the identity region and the status block (R182, R204): a run of
addresses as a window of a region's bytes, the layouts made of equal pieces, and the statement about them. -/

namespace Sys2Proof.Machine

/-! ## Windows of a region's bytes -/

/-- The bytes of the exchange area at `n` addresses from `base` on. -/
def State.area (s : State) (base n : Nat) : List Byte := (List.range n).map (fun i => s.exchange (base + i))

/-- `n` bytes of a region's layout from offset `d` on; what the layout leaves unused reads zero (R182). -/
def window (bs : List Byte) (d n : Nat) : List Byte := (List.range n).map (fun i => byteAt bs (d + i))

theorem State.area_eq_window {s : State} {bs : List Byte} {base d n : Nat}
    (h : ∀ i < n, s.exchange (base + i) = byteAt bs (d + i)) : s.area base n = window bs d n :=
  List.map_congr_left fun i hi => h i (List.mem_range.mp hi)

theorem State.area_of_region (s : State) {r : Coherent} {first last d n : Nat}
    (hr : (r, first, last) ∈ coherentRegions) (hn : first + d + n ≤ last + 1) :
    s.area (first + d) n = window (r.bytes s) d n :=
  State.area_eq_window fun i hi => by
    have hoffset : first + d + i - first = d + i := by omega
    rw [exchange_of_region s (coherentOf_of_inside hr (by omega) (by omega)), hoffset]

theorem window_append (head tail : List Byte) (d n : Nat) :
    window (head ++ tail) (head.length + d) n = window tail d n :=
  List.map_congr_left fun i _ => by
    rw [byteAt, Nat.add_assoc]
    exact getD_append_of_length rfl (d + i)

theorem window_all {bs : List Byte} {n : Nat} (h : bs.length = n) : window bs 0 n = bs :=
  List.ext_getElem (by simp [window, h]) fun i _ hi => by simp [window, byteAt, hi]

/-- In a layout of pieces of one length, the window of a piece is the piece. -/
theorem window_flatMap {α : Type} {f : α → List Byte} {w : Nat} (hw : ∀ x, (f x).length = w) :
    ∀ (xs : List α) (i : Nat) (hi : i < xs.length), window (xs.flatMap f) (w * i) w = f xs[i]
  | x :: xs, 0, _ => by
    have hfirst : window (f x ++ xs.flatMap f) 0 w = window (f x) 0 w :=
      List.map_congr_left fun j hj => List.getD_append _ _ _ _ (by have := List.mem_range.mp hj; have := hw x; omega)
    rw [List.flatMap_cons, Nat.mul_zero, hfirst]
    exact window_all (hw x)
  | x :: xs, i + 1, hi => by
    have hoffset : w * (i + 1) = (f x).length + w * i := by rw [hw x, Nat.mul_succ, Nat.add_comm]
    rw [List.flatMap_cons, hoffset, window_append]
    exact window_flatMap hw xs i (Nat.lt_of_succ_lt_succ hi)

/-! ## Addresses outside the coherent regions (R182) -/

theorem coherentOf_eq_none {a : Nat} (h : a < 0x090 ∨ (0x0F8 ≤ a ∧ a < 0x300) ∨ 0x390 ≤ a) : coherentOf a = none := by
  unfold coherentOf
  rw [if_neg (by omega), if_neg (by omega), if_neg (by omega), if_neg (by omega), if_neg (by omega)]

theorem exchange_of_staging (s : State) {a : Nat} (hlo : 0x100 ≤ a) (hhi : a ≤ 0x1FF) :
    s.exchange a = Memory.read s.port.staging a := by
  rw [exchange_of_plain s (coherentOf_eq_none (by omega)), plainByte, if_neg (by omega), if_neg (by omega),
    if_neg (by omega), if_neg (by omega), if_pos ⟨hlo, hhi⟩]

theorem area_of_cycleTable (s : State) {i : Nat} (hi : i < 16) :
    s.area (0x200 + 16 * i) 16 = window ((s.engine.phases[i]?).elim [] Phase.bytes) 0 16 :=
  State.area_eq_window fun j hj => by
    have hslot : (0x200 + 16 * i + j - 0x200) / 16 = i := by omega
    have hbyte : (0x200 + 16 * i + j - 0x200) % 16 = 0 + j := by omega
    rw [exchange_of_plain s (coherentOf_eq_none (by omega)), plainByte, if_neg (by omega), if_neg (by omega),
      if_neg (by omega), if_neg (by omega), if_neg (by omega), if_pos (by omega), hslot, hbyte]
    cases s.engine.phases[i]? <;> rfl

theorem area_of_ring (s : State) {i : Nat} (hi : i < 32) :
    s.area (0x400 + 8 * i) 8 = (s.port.ring.entries[i]).bytes := by
  refine (State.area_eq_window fun j hj => ?_).trans (window_all rfl)
  have hentry : (0x400 + 8 * i + j - 0x400) / 8 = i := by omega
  have hbyte : (0x400 + 8 * i + j - 0x400) % 8 = 0 + j := by omega
  rw [exchange_of_plain s (coherentOf_eq_none (by omega)), plainByte, if_neg (by omega), if_neg (by omega),
    if_neg (by omega), if_neg (by omega), if_neg (by omega), if_neg (by omega), if_pos (by omega), hentry, hbyte,
    Vector.getElem?_eq_getElem hi]

/-- The addresses past a region's layout, and of no region (R182, R204). -/
def Unused (a : Nat) : Prop :=
  (0x004 ≤ a ∧ a ≤ 0x00F) ∨ (0x01E ≤ a ∧ a ≤ 0x01F) ∨ (0x038 ≤ a ∧ a ≤ 0x07F) ∨ (0x0F8 ≤ a ∧ a ≤ 0x0FF) ∨
    (0x390 ≤ a ∧ a ≤ 0x3FF) ∨ (0x500 ≤ a ∧ a ≤ 0x7FF)

theorem exchange_of_unused (s : State) {a : Nat} (h : Unused a) : s.exchange a = 0 := by
  unfold Unused at h
  rw [exchange_of_plain s (coherentOf_eq_none (by omega)), plainByte]
  by_cases hidentity : a ≤ 0x00F
  · rw [if_pos hidentity]
    exact List.getD_eq_default _ _ (by show 4 ≤ a; omega)
  · rw [if_neg hidentity, if_neg (by omega), if_neg (by omega), if_neg (by omega), if_neg (by omega),
      if_neg (by omega), if_neg (by omega)]

/-! ## Configuration (R185, R107) -/

theorem area_of_class (s : State) (i : Fin 6) : s.area (0x020 + 4 * i.val) 4 =
    [s.cfg.classes[i].maxTemp, s.cfg.classes[i].steam, s.cfg.classes[i].lenHi, s.cfg.classes[i].lenLo] := by
  have hclass : s.cfg.careClass? (i.val + 1) = some s.cfg.classes[i] := dif_pos (by omega)
  refine (State.area_eq_window fun j hj => ?_).trans (window_all rfl)
  have hentry : (0x020 + 4 * i.val + j - 0x020) / 4 = i.val := by omega
  have hbyte : (0x020 + 4 * i.val + j - 0x020) % 4 = j := by omega
  rw [exchange_of_config s ((isConfigAddr_iff _).mpr (by omega)), Settings.byteAt_class _ (by omega),
    Settings.classByte, hentry, hbyte, hclass]
  interval_cases j <;> rfl

/-! ## Coherent regions (R174, R190, R194) -/

/-- The Fault Record's layout in bytes (R174, R204). -/
theorem faultBytes_of_some {s : State} {r : FaultRecord} (h : s.fault = some r) : faultBytes s =
    [byteOf r.code.code, byteOf r.index, byteOf r.kind.code, byteOf r.sub.code, byteOf r.holds.code,
      hiByte (airWord r.air), loByte (airWord r.air), byteOf (r.hum.getD 0),
      (if r.air.isSome then 1 else 0) + (if r.hum.isSome then 2 else 0), byteOf r.later,
      r.last.elim 0 (fun c => byteOf c.code)] := by
  simp only [faultBytes, h, airBytes_eq, humByte_eq, validityByte_eq]
  cases r.last <;> rfl

theorem area_of_counter (s : State) (c : Counter) :
    s.area (0x0D0 + 2 * c.number.val) 2 = twoBytes (s.counter c).toNat := by
  have hnumber := c.number.isLt
  rw [s.area_of_region (r := .counters) (last := 0x0EF) (by decide) (by omega)]
  exact window_flatMap (f := fun n : Half => twoBytes n.toNat) (fun _ => rfl) s.port.counters.toList c.number.val
    (by simp)

theorem peerRecordBytes_length (r : Option PeerRecord) : (peerRecordBytes r).length = 8 := by
  cases r <;> rfl

theorem area_of_peer (s : State) (i : Fin 15) :
    s.area (0x318 + 8 * i.val) 8 = peerRecordBytes s.port.view.recs[i] := by
  have haddr : 0x318 + 8 * i.val = 0x300 + (24 + 8 * i.val) := by omega
  rw [haddr, s.area_of_region (r := .peerView) (last := 0x38F) (by decide) (by omega)]
  refine (window_append _ _ _ _).trans ?_
  exact window_flatMap peerRecordBytes_length s.port.view.recs.toList i.val (by simp)

theorem exchange_of_peerQueue (s : State) {i : Nat} (hi : i < 15) :
    s.exchange (0x303 + i) = byteOf (s.port.view.queue.getD i 0) := by
  rw [exchange_of_region s (r := .peerView) (base := 0x300)
    (coherentOf_of_inside (last := 0x38F) (by decide) (by omega) (by omega))]
  interval_cases i <;> rfl

/-- Settles O30: the code tables, and the regions in address order, each a window of its layout. -/
theorem exchangeAreaShows : Obligations.ExchangeAreaShows := by
  unfold Obligations.ExchangeAreaShows
  refine ⟨⟨fun _ _ _ _ _ => ⟨rfl, rfl⟩, rfl, rfl, rfl, rfl, rfl, rfl⟩, fun s => ?_⟩
  have fault (d n : Nat) (hn : d + n ≤ 16) : s.area (0x0C0 + d) n = window (faultBytes s) d n :=
    s.area_of_region (r := .faultRecord) (last := 0x0CF) (by decide) (by omega)
  have view (d n : Nat) (hn : d + n ≤ 144) : s.area (0x300 + d) n = window (peerViewBytes s) d n :=
    s.area_of_region (r := .peerView) (last := 0x38F) (by decide) (by omega)
  refine ⟨rfl, area_of_class s, rfl, fun hempty => ?noFault, fun r hr => ⟨?cause, ?air, ?rest⟩, area_of_counter s, rfl,
    fun a => exchange_of_staging s, fun i hi => ?phase, view 0 3 (by decide), fun i => exchange_of_peerQueue s,
    view 18 6 (by decide), fun i => ?peer, fun i => area_of_ring s i.isLt, fun a => exchange_of_unused s⟩
  case noFault =>
    refine (fault 0 16 (by decide)).trans ?_
    rw [faultBytes, hempty]
    rfl
  case cause =>
    refine (fault 0 5 (by decide)).trans ?_
    rw [faultBytes_of_some hr]
    rfl
  case air =>
    refine (fault 5 2 (by decide)).trans ?_
    rw [faultBytes_of_some hr]
    cases r.air <;> rfl
  case rest =>
    refine (fault 7 9 (by decide)).trans ?_
    rw [faultBytes_of_some hr]
    cases r.last <;> rfl
  case phase =>
    refine (area_of_cycleTable s hi).trans ?_
    cases s.engine.phases[i]? <;> rfl
  case peer =>
    refine (area_of_peer s i).trans ?_
    cases s.port.view.recs[i] with
    | none => rfl
    | some x => cases hx : x.holding <;> simp only [peerRecordBytes, hx] <;> rfl

end Sys2Proof.Machine
end

section
/-! SUPPORT. What a CLAIM and a STANDING carry reads back (R57, R67, R201), a frame as it was sent has no finding (R11),
and the statement about payloads and the check. -/

namespace Sys2Proof.Machine

theorem toNat_byteOf {n : Nat} (h : n < 256) : (byteOf n).toNat = n := by
  rw [byteOf, BitVec.toNat_ofNat, Nat.mod_eq_of_lt h]

/-- Amounts that a CLAIM may carry (R67). -/
def Share.Carried (a : Share) : Prop := a.power ≤ 63 ∧ a.vent ≤ 31 ∧ a.fill ≤ 1

/-! ## CLAIM (R67, R201) -/

theorem Payload.request?_ofRequest {a : Share} (h : a.Carried) : (Payload.ofRequest a).request? = some a := by
  obtain ⟨hpower, hvent, hfill⟩ := h
  obtain ⟨hkindLo, hkindHi⟩ := a.kind.code_range
  have p0 : (Payload.ofRequest a).p0.toNat = a.power := toNat_byteOf (by omega)
  have p1 : (Payload.ofRequest a).p1.toNat = a.vent := toNat_byteOf (by omega)
  have p2 : (Payload.ofRequest a).p2.toNat = a.fill := toNat_byteOf (by omega)
  have p3 : (Payload.ofRequest a).p3.toNat = a.kind.code := toNat_byteOf (by omega)
  refine Payload.request?_of_fields ?_ p0.symm p1.symm p2.symm p3.symm
  rw [Ne, Payload.request?_eq_none_iff, p0, p1, p2, p3]
  omega

/-! ## STANDING (R57, R201) -/

/-- Fields that fit the bits of P3 to P5 (R201). -/
def StandingFields.Fits (f : StandingFields) : Prop :=
  f.standing < 4 ∧ f.fill < 4 ∧ f.position < 16 ∧ f.power < 256 ∧ f.vent < 32 ∧ f.kind < 8

/-- Fields that fit are packed without loss. -/
theorem Payload.standingFields_ofStanding (p v fl : Byte) {f : StandingFields} (h : f.Fits) :
    (Payload.ofStanding p v fl f).standingFields = f := by
  obtain ⟨hstanding, hfill, hposition, hpower, hvent, hkind⟩ := h
  have p3 : (Payload.ofStanding p v fl f).p3.toNat = f.standing * 64 + f.fill * 16 + f.position := toNat_byteOf (by omega)
  have p4 : (Payload.ofStanding p v fl f).p4.toNat = f.power := toNat_byteOf hpower
  have p5 : (Payload.ofStanding p v fl f).p5.toNat = f.vent * 8 + f.kind := toNat_byteOf (by omega)
  cases f
  simp only [Payload.standingFields, p3, p4, p5, StandingFields.mk.injEq, true_and] at *
  omega

/-- A record that a STANDING can carry with its queue position: NONE, or amounts in range and, when WAITING, a position
of 1 to 15 (R26, R57). -/
inductive Holding.Reportable : Holding → Nat → Prop
  | none (position : Nat) : Reportable .none position
  | admitted {a : Share} (h : a.Carried) (position : Nat) : Reportable (.admitted a) position
  | waiting {a : Share} {position : Nat} (h : a.Carried) (gathered : Option Nat) (first : 1 ≤ position)
      (last : position ≤ 15) : Reportable (.waiting a gathered) position

/-- A share ADMITTED, or WAITING at a position that is not 0, fits and is not malformed (R57). -/
theorem Share.Carried.standing {a : Share} (h : a.Carried) {standing position : Nat}
    (hposition : standing = 1 ∨ (standing = 2 ∧ 1 ≤ position)) (hlast : position ≤ 15) :
    (⟨standing, a.fill, position, a.power, a.vent, a.kind.code⟩ : StandingFields).Fits ∧
      ¬ (⟨standing, a.fill, position, a.power, a.vent, a.kind.code⟩ : StandingFields).Malformed := by
  obtain ⟨hpower, hvent, hfill⟩ := h
  have hkind := a.kind.code_range
  simp only [StandingFields.Fits, StandingFields.Malformed]
  omega

theorem Holding.Reportable.carried {h : Holding} {position : Nat} (hr : h.Reportable position) :
    (StandingFields.ofHolding h position).Fits ∧ ¬ (StandingFields.ofHolding h position).Malformed := by
  cases hr with
  | none => simp [StandingFields.ofHolding, StandingFields.Fits, StandingFields.Malformed]
  | admitted ha => exact ha.standing (.inl rfl) (Nat.zero_le _)
  | waiting ha _ first last => exact ha.standing (.inr ⟨rfl, first⟩) last

/-! ## The check (R11) -/

theorem Reading.finding_clean (kind sender : BitVec 4) (q : Byte) (p : Payload) :
    (Reading.clean kind sender q p).finding kind = false := by
  rw [← Bool.not_eq_true, Reading.finding_iff]
  simp [Reading.clean]

/-- The check of "123456789" by which R11 pins its calculation. -/
theorem crc_of_digits :
    crc (([0x31, 0x32, 0x33, 0x34, 0x35, 0x36, 0x37, 0x38, 0x39] : List Byte).flatMap bitsOf) = 0x29B1 := by
  decide +kernel

/-- Settles O32: the request, the packed record, and the check of a frame. -/
theorem payloadsRoundTrip : Obligations.PayloadsRoundTrip := by
  unfold Obligations.PayloadsRoundTrip
  refine ⟨fun a hpower hvent hfill => ?_, crc_of_digits, Frame.dataBits_length, fun k => Reading.finding_clean k.code⟩
  have ha : a.Carried := ⟨hpower, hvent, hfill⟩
  refine ⟨Payload.request?_ofRequest ha, fun p v f h position hcase => ?_⟩
  have hr : h.Reportable position := by
    obtain rfl | rfl | ⟨rfl, first, last⟩ := hcase
    · exact .none position
    · exact .admitted ha position
    · exact .waiting ha none first last
  obtain ⟨hfits, hwell⟩ := hr.carried
  have hread := Payload.standingFields_ofStanding p v f hfits
  refine ⟨hread, ?_, rfl, rfl, rfl⟩
  rw [← Bool.not_eq_true, Payload.malformed_iff, hread]
  exact hwell

end Sys2Proof.Machine
end

section
/-! SUPPORT. The queue of waiting commands (log 36): the step alone takes from it, no command's meaning touches it, and
the two statements about it. -/

namespace Sys2Proof.Machine

/-! ## The step takes the front -/

@[simp] theorem State.setPending_setPending (s : State) (q r : List Instr) :
    (s.setPending q).setPending r = s.setPending r := rfl

/-- The queue put back as it stands. -/
@[simp] theorem State.setPending_self (s : State) : s.setPending s.pending = s := rfl

theorem step_of_front {s : State} {c : Instr} {rest : List Instr} (h : s.pending = c :: rest) :
    step s = exec c (s.setPending rest) := by
  unfold step
  split
  · next hempty => rw [h] at hempty; cases hempty
  · next d tail hfront =>
    obtain ⟨rfl, rfl⟩ := List.cons.inj (h.symm.trans hfront)
    rfl

/-- Settles O1: the step takes the front off the queue, and the rest of it is the queue of the state before. -/
theorem queueFrontRuns : Obligations.QueueFrontRuns := by
  unfold Obligations.QueueFrontRuns
  intro c s
  calc step (s.setPending (c :: s.pending))
    _ = exec c ((s.setPending (c :: s.pending)).setPending s.pending) := step_of_front (State.setPending_pending ..)
    _ = exec c s := by rw [State.setPending_setPending, State.setPending_self]

/-! ## Commands at their take (R187 to R191) -/

/-- START CYCLE touches the low-reported flag, and else what entering a phase touches (R128, R156). -/
theorem startCycle_pending (s : State) : (startCycle s).1.pending = s.pending := by
  have henters : (enterFresh 0 none (s.setMeas { s.meas with lowReported := false })).pending = s.pending :=
    (outside_pending (enterFresh_outside 0 none _) :)
  unfold startCycle
  split
  case h_5 | h_6 =>
    split
    · rfl
    · split
      · rfl
      · exact henters
  all_goals rfl

theorem decideCode_pending (code : Byte) (s : State) : (decideCode code s).1.pending = s.pending := by
  unfold decideCode
  split
  · exact outside_pending (startStation_outside s)
  split
  · exact outside_pending (leaveStation_outside s)
  split
  · exact outside_pending (rejoin_outside s)
  split
  · exact outside_pending (loadCycle_outside s)
  split
  · exact startCycle_pending s
  split
  · exact outside_pending (hold_outside s)
  split
  · exact outside_pending (resume_outside s)
  split
  · exact outside_pending (abortCycle_outside s)
  split
  · exact outside_pending (clearFault_outside s)
  split
  · rfl
  · rfl

theorem clearAtTake_pending (s : State) : (clearAtTake s).pending = s.pending := by
  unfold clearAtTake
  split
  · exact endTransaction_pending _
  · exact endTransaction_pending (s.setFree (s.free + 1))

/-- The queue is the model's own, and a reset of the part leaves it (R192, log 35). -/
theorem resetPart_pending (inp : Inputs) (s : State) : (resetPart inp s).pending = s.pending := rfl

theorem takeStored_pending (s : State) : (takeStored s).pending = s.pending := by
  unfold takeStored
  split
  · exact resetPart_pending _ s
  split
  · exact clearAtTake_pending s
  · exact (decideCode_pending _ _).trans (endTransaction_pending s)

theorem closeTransaction_pending (s : State) : (closeTransaction s).pending = s.pending := by
  unfold closeTransaction
  split
  · split
    · exact takeStored_pending s
    · exact endTransaction_pending s
  all_goals exact endTransaction_pending s

theorem discardCommand_pending (s : State) : (discardCommand s).pending = s.pending := by
  unfold discardCommand
  split
  · exact closeTransaction_pending (setTxn _ s)
  all_goals exact endTransaction_pending s

/-- A host command keeps the queue where its decision does (R188). -/
theorem hostCommand_pending (code : Byte) {act : State → State × Result} (hact : ∀ u, (act u).1.pending = u.pending)
    (s : State) : (hostCommand code act s).pending = s.pending := by
  unfold hostCommand
  split
  · exact discardCommand_pending s
  · exact (hact _).trans (endTransaction_pending (storeCode code s))

/-! ## Byte times of the port (R181, R182) -/

theorem writeByte_pending (a : Nat) (v : Byte) (x : OpenTxn) (s : State) :
    (writeByte a v x s).pending = s.pending := by
  unfold writeByte
  split
  · unfold writeConfig
    split <;> rfl
  split
  · unfold writeNextOut
    simp only []
    split <;> rfl
  unfold writeRegister
  split
  · unfold writeCode
    split <;> rfl
  repeat' split
  all_goals rfl

theorem advanceAddr_pending (s : State) : (advanceAddr s).pending = s.pending := by
  unfold advanceAddr
  split <;> rfl

theorem dataByte_pending (b : SpiByte) (x : OpenTxn) (s : State) : (dataByte b x s).pending = s.pending := by
  unfold dataByte
  simp only []
  split
  · split
    · exact (advanceAddr_pending _).trans (writeByte_pending ..)
    · rfl
  · exact advanceAddr_pending _
  · rfl

theorem innerByte_pending (b : SpiByte) (s : State) : (innerByte b s).pending = s.pending := by
  unfold innerByte
  split
  · rfl
  · exact dataByte_pending b _ s
  all_goals rfl

theorem portByte_pending (b : SpiByte) (s : State) : (portByte b s).pending = s.pending := by
  have hbegun : (if b.starts then beginHeader (closeTransaction s) else s).pending = s.pending := by
    split
    · exact closeTransaction_pending s
    · rfl
  have hinner := (innerByte_pending b _).trans hbegun
  unfold portByte
  simp only []
  split
  · exact (closeTransaction_pending _).trans hinner
  · exact hinner

/-! ## Frames, samples and the door -/

/-- The end of an own frame may use a free value, and the queue is outside the rest of it (R98, log 5). -/
theorem ownEnd_pending (f : Frame) (r : Reading) (driveFault void : Bool) (s : State) :
    (ownEnd f r driveFault void s).pending = s.pending := by
  have ended : ∀ u t : State, t.pending = s.pending → u.outside = t.outside → u.pending = s.pending :=
    fun u t ht hu => (outside_pending hu).trans ht
  unfold ownEnd
  simp only []
  generalize s.line.frameEnded _ = l
  split
  · split
    · split
      · exact ended _ ((s.setLine l).setFree (s.free + 1)) rfl (by simp)
      · exact ended _ ((s.setLine l).setFree (s.free + 1)) rfl (by simp)
    · exact ended _ s rfl (by simp)
  · exact ended _ s rfl (by simp)

theorem frameEnd_pending (kind : BitVec 4) (r : Reading) (void : Bool) (s : State) :
    (frameEnd kind r void s).pending = s.pending := by
  have hheard : ∀ u : State, u.outside = s.outside → (heardEnd kind r void u).pending = s.pending :=
    fun u hu => outside_pending ((heardEnd_outside kind r void u).trans hu)
  unfold frameEnd
  split
  · rfl
  · rfl
  · exact hheard s rfl
  · exact hheard s rfl
  split
  · exact hheard s rfl
  split
  · exact ownEnd_pending ..
  · exact ownEnd_pending ..
  · simp only []
    split
    · exact hheard _ (loseArbitration_outside [] s)
    · exact outside_pending (loseArbitration_outside [] s)

theorem takeSample_pending (inp : Sensors) (s : State) : (takeSample inp s).pending = s.pending :=
  (congrArg (fun u : State => u.pending) (sampleStep_besideSample _ _ _) :)

theorem changeDoor_pending (s : State) : (changeDoor s).pending = s.pending := by
  unfold changeDoor
  simp only []
  split
  · split
    · exact (outside_pending (doorOpened_outside _) :)
    · exact (outside_pending (doorClosed_outside _) :)
  · rfl

theorem complete_pending (s : State) : (complete s).pending = s.pending := by
  unfold complete
  split <;> rfl

/-! ## Every command -/

/-- The command answers a next state with the queue of the state before. -/
def KeepsQueue (c : Instr) (s : State) : Prop := ∃ t, exec c s = .next t ∧ t.pending = s.pending

/-- A command whose meaning keeps the queue: the Load Drive, which ends it, keeps it too. -/
theorem KeepsQueue.of_finish {c : Instr} {s u : State} (hexec : exec c s = .next (refresh u))
    (hu : u.pending = s.pending) : KeepsQueue c s := ⟨refresh u, hexec, hu⟩

/-- A command within the mask of Laws/Outside.lean. -/
theorem KeepsQueue.of_outside {c : Instr} {s u : State} (hexec : exec c s = .next (refresh u))
    (hu : u.outside = s.outside) : KeepsQueue c s := .of_finish hexec (outside_pending hu)

/-- A row whose code decides for itself (R189). -/
theorem KeepsQueue.of_decidedRow {c : Instr} (h : c ∈ decidedRows.map Prod.fst) (s : State) : KeepsQueue c s := by
  obtain ⟨⟨_, code⟩, hrow, rfl⟩ := List.mem_map.mp h
  obtain ⟨hexec, -, -⟩ := exec_decidedRow hrow
  exact .of_finish (hexec s) (hostCommand_pending code (decideCode_pending code) s)

/-- A row of a frame on the line. -/
theorem KeepsQueue.of_frameEnd {c : Instr} {s : State} {kind : BitVec 4} {r : Reading} {void : Bool}
    (hexec : exec c s = .next (refresh (frameEnd kind r void s))) : KeepsQueue c s :=
  .of_finish hexec (frameEnd_pending kind r void s)

theorem keepsQueue_clearCounters (s : State) : KeepsQueue .clearCounters s := by
  refine .of_finish (exec_clearCounters s) ?_
  split
  · exact discardCommand_pending s
  · exact clearAtTake_pending (storeCode 0x21 s)

theorem keepsQueue_restart (inp : Inputs) (s : State) : KeepsQueue (.restart inp) s := by
  refine .of_finish (exec_restart inp s) ?_
  split
  · exact discardCommand_pending s
  · exact resetPart_pending inp s

theorem keepsQueue_badCommand (code : Byte) (s : State) : KeepsQueue (.badCommand code) s := by
  refine .of_finish rfl ?_
  split
  · exact endTransaction_pending s
  · exact hostCommand_pending code (fun _ => rfl) s

theorem exec_keepsQueue (c : Instr) (s : State) : KeepsQueue c s := by
  cases c with
  | startStation | leaveStation | rejoin | loadCycle | startCycle | hold | resume | abortCycle | clearFault
  | snapshotPeers => exact .of_decidedRow (by simp [decidedRows]) s
  | clearCounters => exact keepsQueue_clearCounters s
  | restart inp => exact keepsQueue_restart inp s
  | badCommand code => exact keepsQueue_badCommand code s
  | powerOn inp | resetPin inp => exact .of_finish rfl (resetPart_pending inp s)
  | configWrite b | nextOutWrite b | registerWrite b | readLatch b => exact .of_finish rfl (portByte_pending b s)
  | idle d => exact .of_outside rfl (idleReached_outside d s)
  | falseStart => exact .of_outside rfl (falseStarted_outside s)
  | arbitrationLost bit => exact .of_outside rfl (arbitrationLostAt_outside bit s)
  | abandonedFrame d => exact .of_outside rfl (frameAbandoned_outside d s)
  | expire r | leave r | release r | claim r | rollcall r | standing r | undefinedKindFrame k r | voidFrame k r =>
    exact .of_frameEnd rfl
  | peerLeaseTimeout peer => exact .of_outside rfl (peerLeaseOut_outside peer.toNat s)
  | renewalTimeout => exact .of_outside rfl (renewalOut_outside s)
  | selfLease => exact .of_outside rfl (selfLeaseOut_outside s)
  | rollcallWindowTimeout => exact .of_outside rfl (windowOut_outside s)
  | autoRejoin => exact .of_outside rfl (rejoinTimeout_outside s)
  | membershipTimeout => exact .of_outside rfl (membershipTimeout_outside s)
  | sampleSet inp => exact .of_finish rfl (takeSample_pending inp s)
  | doorEdge => exact .of_finish (u := edgeDoor s) rfl rfl
  | doorChange => exact .of_finish rfl (changeDoor_pending s)
  | purgeTimeout => exact .of_outside rfl (purgeRanOut_outside s)
  | phaseDurationReached => exact .of_outside rfl (durationReached_outside s)
  | phaseLimitReached => exact .of_outside rfl (limitReached_outside s)
  | completion => exact .of_finish rfl (complete_pending s)

/-- Settles O9: no command's meaning touches the queue, and each ends with the Load Drive following it. -/
theorem onlyTheStepTakesCommands : Obligations.OnlyTheStepTakesCommands := by
  unfold Obligations.OnlyTheStepTakesCommands
  exact exec_keepsQueue

end Sys2Proof.Machine
end
